-- ==== Sys2Proof/Word.lean ====
section
/-! DEFINITION. The two widths of the spec (00_scope R8): bytes of frames, and the 16-bit addresses, values and checksums. -/

namespace Sys2Proof

/-- One byte of a frame, buffer or payload (00_scope R8). -/
abbrev Byte := BitVec 8

/-- A 16-bit unsigned value: an address, a write value, a checksum (00_scope R8). -/
abbrev Half := BitVec 16

end Sys2Proof
end

