-- ==== Sys2Proof/Config.lean ====
section
/-! DEFINITION. The configuration of one instance (00_scope R6, R7; 10_state R37): a record of plain data, and the four
numbers the spec leaves OPEN, as constants with no body. The default values stand in Machine/Params.lean. -/

namespace Sys2Proof

/-- Where the one-phase frame carries address and bit value (00_scope R7, 30_encoding R68 and R69). -/
inductive OnePhaseLayout where
  | addrByte
  | addrWord
deriving DecidableEq, Repr

/-- What a two-phase checksum covers (00_scope R7, 30_encoding R72). -/
inductive CrcScope where
  | headerPlusPayload
  | headerOnly
deriving DecidableEq, Repr

/-- The parameter `OPCODE` (30_encoding R66): the wire byte of each FunctionCode but the sentinel. -/
structure Opcodes where
  readBit : Byte
  readRegister : Byte
  writeBit : Byte
  writeRegister : Byte
  writeBits : Byte
  writeCharacter : Byte
  writeString : Byte
  readString : Byte
  idle : Byte
deriving DecidableEq, Repr

/-- The nine wire bytes in the enumeration's order (30_encoding R65). -/
def Opcodes.toList (o : Opcodes) : List Byte :=
  [o.readBit, o.readRegister, o.writeBit, o.writeRegister, o.writeBits,
    o.writeCharacter, o.writeString, o.readString, o.idle]

/-- `OPCODE` is injective over the nine non-sentinel codes (30_encoding R66). -/
abbrev Opcodes.injective (o : Opcodes) : Prop := o.toList.Nodup

/-- The configuration of one block instance; no step changes it (70_reset R187). -/
structure Config where
  /-- `OPCODE` (R66). -/
  opcodes : Opcodes
  /-- `CRC_TABLE` (R89). -/
  crcTable : Vector Half 256
  /-- `CRC_INIT` (R90). -/
  crcInit : Half
  /-- `ONE_PHASE_LAYOUT` (R7). -/
  onePhaseLayout : OnePhaseLayout
  /-- `CRC_SCOPE` (R7). -/
  crcScope : CrcScope
  /-- `CHUNK_LIMIT`, bytes (R6). -/
  chunkLimit : Nat
  /-- `MAX_DESC`, descriptors (R6). -/
  maxDesc : Nat
  /-- `MAX_WRITE_REGS` (R6). -/
  maxWriteRegs : Nat
  /-- `SETTLE_DELAY_US` (R7). -/
  settleDelayUs : Nat
  /-- `TIMEOUT_US` (R7). -/
  timeoutUs : Nat
  /-- `POLL_INTERVAL_US` (R7). -/
  pollIntervalUs : Nat
  /-- `DEFAULT_SPEED_HZ` (R7). -/
  defaultSpeedHz : Nat
  /-- `QUEUE_CAPACITY`; `none` is unbounded (R7). -/
  queueCapacity : Option Nat
  /-- Whether the optional timed refinement (43_sequencer R138) is in force. DESIGN CHOICE (log 12). -/
  timed : Bool
deriving DecidableEq, Repr

/-- The domains the spec gives the parameters (00_scope R6, R7): an injective `OPCODE`, positive chunk limit, poll interval
and default speed. -/
abbrev Config.wf (c : Config) : Prop :=
  c.opcodes.injective ∧ 0 < c.chunkLimit ∧ 0 < c.pollIntervalUs ∧ 0 < c.defaultSpeedHz

/-- `SETTLE_DELAY_US`, OPEN (00_scope R7, decision D12): no value is chosen (log 7). -/
opaque Config.openSettleDelayUs : Nat

/-- `TIMEOUT_US`, OPEN (00_scope R7, decision D21): no value is chosen (log 7). -/
opaque Config.openTimeoutUs : Nat

/-- `POLL_INTERVAL_US` less one, OPEN (00_scope R7, decision D43): the interval is positive, no value is chosen (log 7). -/
opaque Config.openPollIntervalPredUs : Nat

/-- `DEFAULT_SPEED_HZ` less one, OPEN (00_scope R7, decision D28): the speed is positive, no value is chosen (log 7). -/
opaque Config.openDefaultSpeedPredHz : Nat

end Sys2Proof
end

