-- ==== Sys2Proof/Machine/Checksum.lean ====
section
/-! DEFINITION. The checksum unit (40_checksum R84 to R92): one pure function over a byte sequence and a seed. -/

namespace Sys2Proof.Machine

/-- `crc_step` (40_checksum R88): `(c >> 8) ^ T[(c ^ zext_16(b)) & 0x00FF]`; the mask is the low byte, the index of a table of
256 entries. -/
def crcStep (table : Vector Half 256) (c : Half) (b : Byte) : Half :=
  (c >>> 8) ^^^ table.get ((c ^^^ b.setWidth 16).setWidth 8).toFin

/-- `checksum(bytes, seed)` (40_checksum R85, R88): the fold of `crc_step` from the seed over the bytes in order. -/
def checksum (table : Vector Half 256) (bytes : List Byte) (seed : Half) : Half :=
  bytes.foldl (crcStep table) seed

/-- The checksum of frame bytes: the configured table, from `CRC_INIT` (40_checksum R90). -/
def frameChecksum (cfg : Config) (bytes : List Byte) : Half :=
  checksum cfg.crcTable bytes cfg.crcInit

end Sys2Proof.Machine
end

