-- ==== Sys2Proof/Machine/Bytes.lean ====
section
/-! DEFINITION. The notation of 00_scope R9 to R11 and the byte order of 20_memory R40. -/

namespace Sys2Proof.Machine

/-- `lo8(v) = v[7:0]` (00_scope R9). -/
def lo8 (v : Half) : Byte := v.setWidth 8

/-- `hi8(v) = v[15:8]` (00_scope R9). -/
def hi8 (v : Half) : Byte := (v >>> 8).setWidth 8

/-- `le16bytes(v) = [lo8(v), hi8(v)]` (00_scope R10): every 16-bit field goes low byte first (20_memory R40). -/
def le16bytes (v : Half) : List Byte := [lo8 v, hi8 v]

/-- `le16(a, b) = a + 256*b`, a the low byte (00_scope R9). -/
def le16 (a b : Byte) : Half := BitVec.ofNat 16 (a.toNat + 256 * b.toNat)

/-- `zeros(n)` (00_scope R10). -/
def zeros (n : Nat) : List Byte := List.replicate n 0#8

/-- `ceil_div(a, b)` for b > 0 (00_scope R9). -/
def ceilDiv (a b : Nat) : Nat := (a + b - 1) / b

/-- `xs[i]`, 0-based (00_scope R10). Past the end it answers 0, which no rule of the spec relies on (log 14). -/
def byteOf (xs : List Byte) (i : Nat) : Byte := xs.getD i 0#8

/-- `MemRead(buf, off, n)`, the bytes `buf[off..off+n)` (00_scope R11). -/
def memRead (buf : List Byte) (off n : Nat) : List Byte := (buf.drop off).take n

/-- `MemWrite(buf, off, n, v)` with `n = len(v)` (00_scope R11). -/
def memWrite (buf : List Byte) (off : Nat) (v : List Byte) : List Byte :=
  buf.take off ++ v ++ buf.drop (off + v.length)

end Sys2Proof.Machine
end

