-- ==== Sys2Proof/Syntax.lean ====
section
/-! DEFINITION. The block's instructions are the requests it accepts (30_encoding, opening): one constructor of `Instr` per
FunctionCode of spec/opcode_table.json, each with the construction the request was presented with (30_encoding R62). -/

namespace Sys2Proof

/-- The closed enumeration of 30_encoding R65, in the source's order, with the sentinel. -/
inductive FunctionCode where
  | readBit
  | readRegister
  | writeBit
  | writeRegister
  | writeBits
  | writeCharacter
  | writeString
  | readString
  | idle
  | invalid
deriving DecidableEq, Repr

/-- The constructions of 30_encoding R62 with their operands, less the opcode. `noOperands` is the spec's `Idle()`; with any
other opcode it is the bare opcode (log 16). Operands are u16 by type (R64); the count is a nat, checked by the request port. -/
inductive Construction where
  /-- `Read(op, addr, count)`. -/
  | read (addr : Half) (count : Nat)
  /-- `WriteOne(op, addr, value)`. -/
  | writeOne (addr value : Half)
  /-- `WriteMany(op, addr, values)`. -/
  | writeMany (addr : Half) (values : List Half)
  /-- `Idle()`: no operands. -/
  | noOperands
deriving DecidableEq, Repr

/-- A request: an opcode and the construction that names it (30_encoding R62). A construction the opcode does not admit is
still a request: the request port rejects it (R78). -/
inductive Instr where
  /-- 41_framing R99. -/
  | readBit (c : Construction)
  /-- 41_framing R100. -/
  | readRegister (c : Construction)
  /-- 41_framing R101. -/
  | writeBit (c : Construction)
  /-- 41_framing R102. -/
  | writeRegister (c : Construction)
  /-- 41_framing R103. -/
  | writeBits (c : Construction)
  /-- 41_framing R104. -/
  | writeCharacter (c : Construction)
  /-- 41_framing R105. -/
  | writeString (c : Construction)
  /-- 41_framing R106. -/
  | readString (c : Construction)
  /-- 41_framing R107. -/
  | idle (c : Construction)
  /-- 41_framing R108. -/
  | invalid (c : Construction)
deriving DecidableEq, Repr

/-- The FunctionCode a request names. -/
def Instr.op : Instr → FunctionCode
  | .readBit _ => .readBit
  | .readRegister _ => .readRegister
  | .writeBit _ => .writeBit
  | .writeRegister _ => .writeRegister
  | .writeBits _ => .writeBits
  | .writeCharacter _ => .writeCharacter
  | .writeString _ => .writeString
  | .readString _ => .readString
  | .idle _ => .idle
  | .invalid _ => .invalid

/-- The construction a request is made by. -/
def Instr.construction : Instr → Construction
  | .readBit c => c
  | .readRegister c => c
  | .writeBit c => c
  | .writeRegister c => c
  | .writeBits c => c
  | .writeCharacter c => c
  | .writeString c => c
  | .readString c => c
  | .idle c => c
  | .invalid c => c

end Sys2Proof
end

