-- ==== Sys2Proof/Machine/Operands.lean ====
section
/-! DEFINITION. The operands of a request and how frames carry them: which fields a construction gives (30_encoding R62), the
opcode bytes (R66), the classes of R67, payload and frame lengths (41_framing R109, R110), the packing of registers and bits
(30_encoding R71). -/

namespace Sys2Proof.Machine

/-- The address operand; a request without operands has none and records 0 (41_framing R107, log 15). -/
def reqAddr : Construction → Half
  | .read addr _ => addr
  | .writeOne addr _ => addr
  | .writeMany addr _ => addr
  | .noOperands => 0#16

/-- The item count `n` of 42_segmentation R113 check 2: the read count, 1, the number of values, 0. -/
def reqCount : Construction → Nat
  | .read _ count => count
  | .writeOne _ _ => 1
  | .writeMany _ values => values.length
  | .noOperands => 0

/-- The write values in order; empty for reads and Idle (10_state R26). -/
def reqValues : Construction → List Half
  | .read _ _ => []
  | .writeOne _ value => [value]
  | .writeMany _ values => values
  | .noOperands => []

/-- `OPCODE(f)` (30_encoding R66): the sentinel has no wire value. -/
def opcodeByte (o : Opcodes) : FunctionCode → Option Byte
  | .readBit => some o.readBit
  | .readRegister => some o.readRegister
  | .writeBit => some o.writeBit
  | .writeRegister => some o.writeRegister
  | .writeBits => some o.writeBits
  | .writeCharacter => some o.writeCharacter
  | .writeString => some o.writeString
  | .readString => some o.readString
  | .idle => some o.idle
  | .invalid => none

/-- The FunctionCode a wire byte names, if any (30_encoding R76, R79). -/
def functionCodeOf (o : Opcodes) (b : Byte) : Option FunctionCode :=
  if b = o.readBit then some .readBit
  else if b = o.readRegister then some .readRegister
  else if b = o.writeBit then some .writeBit
  else if b = o.writeRegister then some .writeRegister
  else if b = o.writeBits then some .writeBits
  else if b = o.writeCharacter then some .writeCharacter
  else if b = o.writeString then some .writeString
  else if b = o.readString then some .readString
  else if b = o.idle then some .idle
  else none

/-- The constructions an opcode admits (30_encoding R67). -/
def admits : FunctionCode → Construction → Bool
  | .readBit, .read _ _ => true
  | .readRegister, .read _ _ => true
  | .writeBit, .writeOne _ _ => true
  | .writeRegister, .writeOne _ _ => true
  | .writeRegister, .writeMany _ _ => true
  | .writeBits, .writeOne _ _ => true
  | .writeBits, .writeMany _ _ => true
  | .idle, .noOperands => true
  | _, _ => false

/-- The two-phase opcodes (30_encoding R67). -/
def isTwoPhase : FunctionCode → Bool
  | .readBit => true
  | .readRegister => true
  | .writeRegister => true
  | .writeBits => true
  | _ => false

/-- The read opcodes (30_encoding R67). -/
def isRead : FunctionCode → Bool
  | .readBit => true
  | .readRegister => true
  | _ => false

/-- The opcodes whose values are bits (30_encoding R64). -/
def isBitWrite : FunctionCode → Bool
  | .writeBit => true
  | .writeBits => true
  | _ => false

/-- `plen(op, count)` (41_framing R109): two bytes a register, a bit array rounded up to whole bytes; no payload otherwise. -/
def plen : FunctionCode → Nat → Nat
  | .readRegister, count => 2 * count
  | .writeRegister, count => 2 * count
  | .readBit, count => ceilDiv count 8
  | .writeBits, count => ceilDiv count 8
  | _, _ => 0

/-- `flen` (41_framing R110): 6 for the one-phase opcodes, header + payload + trailer for the two-phase ones. -/
def flen (op : FunctionCode) (count : Nat) : Nat :=
  if isTwoPhase op then 4 + plen op count + 2 else 6

/-- Registers packed in list order, each low byte first (30_encoding R71). -/
def packRegs (values : List Half) : List Byte := values.flatMap le16bytes

/-- Up to eight bits as one byte, the first in bit 0 (30_encoding R71). -/
def packByte : List Half → Byte
  | [] => 0#8
  | v :: vs => v.setWidth 8 ||| (packByte vs <<< 1)

/-- Bits packed into `n` bytes: bit i is bit i%8 of byte i/8, unused high bits 0 (30_encoding R71). -/
def packBits : Nat → List Half → List Byte
  | 0, _ => []
  | n + 1, vs => packByte (vs.take 8) :: packBits n (vs.drop 8)

/-- Register `i` of a packed payload (30_encoding R71, 44_validation R157). -/
def regAt (payload : List Byte) (i : Nat) : Half :=
  le16 (byteOf payload (2 * i)) (byteOf payload (2 * i + 1))

/-- Bit `i` of a packed payload (30_encoding R71, 44_validation R156). -/
def bitAt (payload : List Byte) (i : Nat) : Bool :=
  (byteOf payload (i / 8)).getLsbD (i % 8)

end Sys2Proof.Machine
end

