-- ==== Sys2Proof/Machine/Framing.lean ====
section
/-! DEFINITION. The frame builder (41_framing R97, R98): the transmit frame of an accepted request, a function of its operands
and the configuration alone (R111). -/

namespace Sys2Proof.Machine

/-- Bytes 0 to 3 of WriteBit's one-phase frame under either layout (41_framing R97). -/
def oneHeader (cfg : Config) (addr value : Half) : List Byte :=
  match cfg.onePhaseLayout with
  | .addrByte => [cfg.opcodes.writeBit, lo8 addr] ++ le16bytes value
  | .addrWord => [cfg.opcodes.writeBit, lo8 value] ++ le16bytes addr

/-- Covered bytes and their checksum, low byte first (41_framing R97, R98). -/
def withTrailer (cfg : Config) (covered : List Byte) : List Byte :=
  covered ++ le16bytes (frameChecksum cfg covered)

/-- `build1` for WriteBit (41_framing R97). -/
def buildWriteBit (cfg : Config) (addr value : Half) : List Byte :=
  withTrailer cfg (oneHeader cfg addr value)

/-- `build1` for Idle, the same under both layouts (41_framing R97, R107). -/
def buildIdle (cfg : Config) : List Byte :=
  withTrailer cfg [cfg.opcodes.idle, 0#8, 0#8, 0#8]

/-- The bit loop of `build2`: value i, counted from `i`, is or-ed into payload byte i/8 at position i%8 (41_framing R98). -/
def orBits : Nat → List Half → List Byte → List Byte
  | _, [], pay => pay
  | i, v :: vs, pay => orBits (i + 1) vs (pay.modify (i / 8) (fun b => b ||| (v.setWidth 8 <<< (i % 8))))

/-- `build2` around a payload: header, payload, trailer over the scope (41_framing R98). -/
def build2 (cfg : Config) (opByte : Byte) (count : Nat) (addr : Half) (pay : List Byte) : List Byte :=
  match cfg.crcScope with
  | .headerPlusPayload => withTrailer cfg ([opByte, BitVec.ofNat 8 count] ++ le16bytes addr ++ pay)
  | .headerOnly =>
    [opByte, BitVec.ofNat 8 count] ++ le16bytes addr ++ pay
      ++ le16bytes (frameChecksum cfg ([opByte, BitVec.ofNat 8 count] ++ le16bytes addr))

/-- `build2(ReadBit, …)`: a zero payload (41_framing R98, R99). -/
def buildReadBit (cfg : Config) (addr : Half) (count : Nat) : List Byte :=
  build2 cfg cfg.opcodes.readBit count addr (zeros (plen .readBit count))

/-- `build2(ReadRegister, …)`: a zero payload (41_framing R98, R100). -/
def buildReadRegister (cfg : Config) (addr : Half) (count : Nat) : List Byte :=
  build2 cfg cfg.opcodes.readRegister count addr (zeros (plen .readRegister count))

/-- `build2(WriteRegister, …)`: the values in order, low byte first (41_framing R98, R102). -/
def buildWriteRegister (cfg : Config) (addr : Half) (values : List Half) : List Byte :=
  build2 cfg cfg.opcodes.writeRegister values.length addr (packRegs values)

/-- `build2(WriteBits, …)`: the bit loop over a zero payload (41_framing R98, R103). -/
def buildWriteBits (cfg : Config) (addr : Half) (values : List Half) : List Byte :=
  build2 cfg cfg.opcodes.writeBits values.length addr
    (orBits 0 values (zeros (plen .writeBits values.length)))

end Sys2Proof.Machine
end

