-- ==== Sys2Proof/Decode.lean ====
section
/-! DEFINITION. The words of a request: the frames F1 and F2 of 30_encoding R68 to R72, read by length as R76 says. A request
itself has no wire form in the spec; its frame is the one word form the opcode table gives it (log 3). -/

namespace Sys2Proof

open Machine

/-- Why bytes are no request. Safe: the model stops where the spec gives the bytes no meaning as a request (log 19). -/
inductive DecodeError where
  /-- No byte 0. -/
  | noBytes
  /-- Byte 0 is no wire value of `OPCODE` (30_encoding R79). -/
  | unknownOpcode
  /-- Fewer bytes than the length R76 gives. -/
  | truncated
  /-- A field the encoding fixes at zero is not zero: an operand byte of Idle (30_encoding R68). -/
  | fixedField
  /-- A read's transmitted payload is not all zero (30_encoding R71). -/
  | readPayload
  /-- An unused high bit of a bit payload is set (30_encoding R71). -/
  | padBits
  /-- Bytes stand after the frame. -/
  | trailingBytes
deriving DecidableEq, Repr

/-- The one-phase form (30_encoding R68, R69): fields after the opcode byte are `b1`, `w` and the trailer, which carries no
operand and is not compared (log 3). -/
def decodeOnePhase (rest : List Byte) (read : Byte → Half → Except DecodeError Instr) :
    Except DecodeError (Instr × List Byte) :=
  match rest with
  | b1 :: wLo :: wHi :: _ :: _ :: after =>
    match read b1 (le16 wLo wHi) with
    | .ok i => .ok (i, after)
    | .error e => .error e
  | _ => .error .truncated

/-- The two-phase form (30_encoding R70 to R72): length byte, address, payload of `plen` bytes, and the trailer, which carries no
operand and is not compared (log 3). -/
def decodeTwoPhase (op : FunctionCode) (rest : List Byte)
    (read : Half → Nat → List Byte → Except DecodeError Instr) : Except DecodeError (Instr × List Byte) :=
  match rest with
  | len :: aLo :: aHi :: body =>
    let p := plen op len.toNat
    if body.length < p + 2 then .error .truncated
    else
      match read (le16 aLo aHi) len.toNat (body.take p) with
      | .ok i => .ok (i, body.drop (p + 2))
      | .error e => .error e
  | _ => .error .truncated

/-- WriteBit's operands from `b1` and `w` (30_encoding R68 AddrByte, R69 AddrWord). -/
def readWriteBit (layout : OnePhaseLayout) (b1 : Byte) (w : Half) : Except DecodeError Instr :=
  match layout with
  | .addrByte => .ok (.writeBit (.writeOne (b1.setWidth 16) w))
  | .addrWord => .ok (.writeBit (.writeOne w (b1.setWidth 16)))

/-- Idle's operand bytes are zero (30_encoding R68, R69). -/
def readIdle (b1 : Byte) (w : Half) : Except DecodeError Instr :=
  if b1 = 0#8 ∧ w = 0#16 then .ok (.idle .noOperands) else .error .fixedField

/-- A read transmits a zero payload (30_encoding R71). -/
def readReadBit (addr : Half) (count : Nat) (payload : List Byte) : Except DecodeError Instr :=
  if payload = zeros (plen .readBit count) then .ok (.readBit (.read addr count)) else .error .readPayload

/-- A read transmits a zero payload (30_encoding R71). -/
def readReadRegister (addr : Half) (count : Nat) (payload : List Byte) : Except DecodeError Instr :=
  if payload = zeros (plen .readRegister count) then .ok (.readRegister (.read addr count)) else .error .readPayload

/-- Register i at payload bytes 2i, 2i+1 (30_encoding R71). -/
def readWriteRegister (addr : Half) (count : Nat) (payload : List Byte) : Except DecodeError Instr :=
  .ok (.writeRegister (.writeMany addr ((List.range count).map (regAt payload))))

/-- Bit i at bit i%8 of payload byte i/8, the unused high bits 0 (30_encoding R71). -/
def readWriteBits (addr : Half) (count : Nat) (payload : List Byte) : Except DecodeError Instr :=
  let values : List Half := (List.range count).map (fun i => if bitAt payload i then 1#16 else 0#16)
  if packBits (plen .writeBits count) values = payload then .ok (.writeBits (.writeMany addr values))
  else .error .padBits

/-- The first request of a byte sequence and the bytes after it, by the length rule of 30_encoding R76. The three opcodes with a
wire value and no frame layout are their opcode byte alone (41_framing R104 to R106, log 16). -/
def decode (cfg : Config) : List Byte → Except DecodeError (Instr × List Byte)
  | [] => .error .noBytes
  | b :: rest =>
    match functionCodeOf cfg.opcodes b with
    | some .readBit => decodeTwoPhase .readBit rest readReadBit
    | some .readRegister => decodeTwoPhase .readRegister rest readReadRegister
    | some .writeBit => decodeOnePhase rest (readWriteBit cfg.onePhaseLayout)
    | some .writeRegister => decodeTwoPhase .writeRegister rest readWriteRegister
    | some .writeBits => decodeTwoPhase .writeBits rest readWriteBits
    | some .writeCharacter => .ok (.writeCharacter .noOperands, rest)
    | some .writeString => .ok (.writeString .noOperands, rest)
    | some .readString => .ok (.readString .noOperands, rest)
    | some .idle => decodeOnePhase rest readIdle
    | some .invalid => .error .unknownOpcode
    | none => .error .unknownOpcode

/-- Bytes that are one request and nothing else. -/
def decodeWhole (cfg : Config) (bytes : List Byte) : Except DecodeError Instr :=
  match decode cfg bytes with
  | .ok (i, []) => .ok i
  | .ok (_, _ :: _) => .error .trailingBytes
  | .error e => .error e

/-- How long the request at the front of the bytes is (30_encoding R76); one byte for the opcodes with no frame layout. -/
def requestLength (cfg : Config) : List Byte → Option Nat
  | [] => none
  | b :: rest =>
    match functionCodeOf cfg.opcodes b with
    | some .writeCharacter => some 1
    | some .writeString => some 1
    | some .readString => some 1
    | some op => some (flen op (byteOf rest 0).toNat)
    | none => none

/-! The encoder, field by field from the tables of 30_encoding R68 to R72 (the frame builder of Machine/Framing.lean follows the
pseudocode of 41_framing instead). -/

/-- The trailer of a frame: the checksum of the covered bytes, low byte first (40_checksum R91). -/
def encodeTrailer (cfg : Config) (covered : List Byte) : List Byte :=
  le16bytes (frameChecksum cfg covered)

/-- An F1 frame: `op`, `b1`, `w` low byte first, `crc` over bytes 0 to 3 (30_encoding R68, R69). -/
def encodeF1 (cfg : Config) (op b1 : Byte) (w : Half) : List Byte :=
  [op, b1, lo8 w, hi8 w] ++ encodeTrailer cfg [op, b1, lo8 w, hi8 w]

/-- An F2 frame: `op`, `len`, `addr` low byte first, payload, `crc` over the scope (30_encoding R70 to R72). -/
def encodeF2 (cfg : Config) (op : Byte) (count : Nat) (addr : Half) (payload : List Byte) : List Byte :=
  let header := [op, BitVec.ofNat 8 count, lo8 addr, hi8 addr]
  header ++ payload ++
    (match cfg.crcScope with
     | .headerPlusPayload => encodeTrailer cfg (header ++ payload)
     | .headerOnly => encodeTrailer cfg header)

/-- WriteBit's frame under either layout (30_encoding R68, R69, R75). -/
def encodeWriteBit (cfg : Config) (addr value : Half) : List Byte :=
  match cfg.onePhaseLayout with
  | .addrByte => encodeF1 cfg cfg.opcodes.writeBit (lo8 addr) value
  | .addrWord => encodeF1 cfg cfg.opcodes.writeBit (lo8 value) addr

/-- The words of a request (30_encoding R66 to R72). A request that names no frame has none. -/
def encode (cfg : Config) : Instr → List Byte
  | .readBit (.read addr count) => encodeF2 cfg cfg.opcodes.readBit count addr (zeros (plen .readBit count))
  | .readBit _ => []
  | .readRegister (.read addr count) =>
    encodeF2 cfg cfg.opcodes.readRegister count addr (zeros (plen .readRegister count))
  | .readRegister _ => []
  | .writeBit (.writeOne addr value) => encodeWriteBit cfg addr value
  | .writeBit _ => []
  | .writeRegister (.writeOne addr value) => encodeF2 cfg cfg.opcodes.writeRegister 1 addr (packRegs [value])
  | .writeRegister (.writeMany addr values) =>
    encodeF2 cfg cfg.opcodes.writeRegister values.length addr (packRegs values)
  | .writeRegister _ => []
  | .writeBits (.writeOne addr value) => encodeF2 cfg cfg.opcodes.writeBits 1 addr (packBits 1 [value])
  | .writeBits (.writeMany addr values) =>
    encodeF2 cfg cfg.opcodes.writeBits values.length addr (packBits (plen .writeBits values.length) values)
  | .writeBits _ => []
  | .writeCharacter .noOperands => [cfg.opcodes.writeCharacter]
  | .writeCharacter _ => []
  | .writeString .noOperands => [cfg.opcodes.writeString]
  | .writeString _ => []
  | .readString .noOperands => [cfg.opcodes.readString]
  | .readString _ => []
  | .idle .noOperands => encodeF1 cfg cfg.opcodes.idle 0#8 0#16
  | .idle _ => []
  | .invalid _ => []

/-! The host's view of an instruction as one number. -/

/-- Byte `k` of a number whose bit 0 is the least significant bit of the first byte. -/
def tableByte (w k : Nat) : Byte := BitVec.ofNat 8 (w / 256 ^ k)

/-- The longest request the decoder reads: 255 registers, 4 + 510 + 2 bytes (30_encoding R70, R71). -/
def longestRequest : Nat := 516

/-- The bytes of an instruction given as `nbits` bits of `w`, every bit above them 0, cut at the request's own length
(30_encoding R76). -/
def tableImage (cfg : Config) (nbits w : Nat) : List Byte :=
  let bytes := (List.range ((nbits + 7) / 8)).map (tableByte (w % 2 ^ nbits))
  let padded := bytes ++ zeros (longestRequest - bytes.length)
  match requestLength cfg padded with
  | some n => padded.take n
  | none => padded

/-- The instruction the decoder reads from a table word, under the default `OPCODE`. -/
def decodeTableWord (nbits w : Nat) : Option Instr :=
  match decodeWhole defaultConfig (tableImage defaultConfig nbits w) with
  | .ok i => some i
  | .error _ => none

end Sys2Proof
end

