-- ==== Sys2Proof/Machine/State.lean ====
section
/-! DEFINITION. The state of one block instance (10_state R16) and of the ports around it, the reasons to stop, and the reset
state (10_state R38). State is plain data: the choices of the agents (00_scope R14) are a list of events in it. -/

namespace Sys2Proof.Machine

/-- The sequencer's state (10_state R18). -/
inductive SeqState where
  | stopped
  | idle
  | waitBus
  | inFlight
deriving DecidableEq, Repr

/-- A message's completion state (10_state R29). -/
inductive Completion where
  | pending
  | completed
  | timedOut
  | transportError
  | protocolError
deriving DecidableEq, Repr

/-- The fail-fast kinds of the request port (60_exceptions R165). -/
inductive RejectKind where
  | requestTooLarge
  | requestUnsupported
deriving DecidableEq, Repr

/-- A message's result (10_state R26, 44_validation R156 to R158). -/
inductive ReadResult where
  | nothing
  | registers (values : List Half)
  | bits (values : List Bool)
deriving DecidableEq, Repr

/-- A segment descriptor (30_encoding R73). -/
structure Descriptor where
  delayMicros : Nat
  txOffset : Nat
  rxOffset : Nat
  length : Nat
deriving DecidableEq, Repr

/-- A message record (10_state R26). `rx = none` is the spec's `novalue` (R28). -/
structure Message where
  op : FunctionCode
  addr : Half
  count : Nat
  values : List Half
  tx : List Byte
  segs : List Descriptor
  rx : Option (List Byte)
  deadline : Option Nat
  state : Completion
  result : ReadResult
deriving DecidableEq, Repr

/-- The message store `msgs`: tag and record, tags strictly rising (10_state R26, log 13). -/
abbrev Memory := List (Nat × Message)

/-- What the sequencer hands the bus port (43_sequencer R128). -/
structure Submission where
  segs : List Descriptor
  tx : List Byte
  hz : Nat
deriving DecidableEq, Repr

/-- The bus agent's answer (43_sequencer R129). -/
inductive BusAnswer where
  | ok (bytes : List Byte)
  | fail
deriving DecidableEq, Repr

/-- A request as a producer presents it: the spec's request term (30_encoding R62), or the bytes of its frame (log 3). -/
inductive Presented where
  | term (i : Instr)
  | frame (bytes : List Byte)
deriving DecidableEq, Repr

/-- One step of one agent (00_scope R14). An event whose step is not enabled leaves the block as it is (log 9). -/
inductive Event where
  /-- A producer presents a request (43_sequencer R127). -/
  | present (p : Presented)
  /-- The k-th producer held at the full queue tries again (43_sequencer R148). -/
  | resume (k : Nat)
  /-- The sequencer takes the step it has enabled, if any (43_sequencer R126). -/
  | sequencer
  /-- The bus answers the outstanding submission (43_sequencer R129). -/
  | bus (a : BusAnswer)
  /-- The deadline expires (43_sequencer R137). -/
  | expire
  /-- The clock of the timed refinement advances by some microseconds (43_sequencer R138). -/
  | tick (micros : Nat)
  /-- `SetSpeed(hz)` (43_sequencer R145). -/
  | setSpeed (hz : Nat)
  /-- `Shutdown()` (43_sequencer R146). -/
  | shutdown
  /-- `Start()`; `opens` says whether the bus port can be opened (43_sequencer R147). -/
  | start (opens : Bool)
  /-- The host reads STATUS (10_state R35). -/
  | readStatus
  /-- The host writes STATUS; writes are ignored (10_state R35). -/
  | writeStatus (value : Nat)
  /-- The holder of a tag reads the message's state (60_exceptions R171). -/
  | readState (tag : Nat)
  /-- The holder of a tag reads `rx` (10_state R39). -/
  | readRx (tag : Nat)
  /-- The holder of a tag reads `result` (10_state R39). -/
  | readResult (tag : Nat)
deriving DecidableEq, Repr

/-- The STATUS view (10_state R35). -/
structure StatusView where
  seq : BitVec 2
  busBusy : Bool
  qlen : Nat
deriving DecidableEq, Repr

/-- What the block answers at a port. -/
inductive Output where
  /-- `Accepted(t)` (43_sequencer R127). -/
  | accepted (tag : Nat)
  /-- `Rejected(kind)` (43_sequencer R127). -/
  | rejected (kind : RejectKind)
  /-- `Submit(segs, tx, hz)` at the bus port, for the message named (43_sequencer R132). -/
  | submitted (tag : Nat) (sub : Submission)
  /-- The completion event (60_exceptions R171). -/
  | completion (tag : Nat) (state : Completion)
  /-- Start fails (60_exceptions R169). -/
  | deviceUnavailable
  /-- SetSpeed(0) is refused (43_sequencer R145). -/
  | speedRefused
  /-- The answer to a STATUS read. -/
  | status (view : StatusView)
  /-- The answer to a read of a message's state. -/
  | messageState (tag : Nat) (state : Completion)
  /-- The answer to a read of a message's `rx`. -/
  | messageRx (tag : Nat) (bytes : List Byte)
  /-- The answer to a read of a message's `result`. -/
  | messageResult (tag : Nat) (result : ReadResult)
deriving DecidableEq, Repr

/-- Why the machine stops. -/
inductive Fault where
  /-- A host read of `rx` or `result` of a message that is Pending (70_reset R193: "in a model the read faults"). Safe. -/
  | readWhilePending (tag : Nat)
  /-- A host read of an `rx` that holds no value (70_reset R193, 10_state R28). Safe. -/
  | rxNoValue (tag : Nat)
  /-- A host read of a message that does not exist: no producer holds such a tag (10_state R23, log 28). Safe. -/
  | noSuchMessage (tag : Nat)
  /-- The sequencer holds a tag with no record, in states no run from reset reaches (log 13). Safe. -/
  | danglingTag (tag : Nat)
deriving DecidableEq, Repr

/-- What the machine gives no meaning to. -/
inductive Refusal where
  /-- An instruction whose meaning is not written yet. No arm of exec answers it. Safe. -/
  | notModelled (mnemonic : String)
  /-- Bytes presented as a request that are no frame of the opcode table (30_encoding R76, R79, log 19). Safe. -/
  | badFrame (e : DecodeError)
  /-- A system with two instances on one device or one index (70_reset R197, log 21). Safe. -/
  | sharedDevice
deriving DecidableEq, Repr

/-- One block instance, its ports and the agents' coming steps. -/
structure State where
  /-- Configuration of the instance, never written (70_reset R187). -/
  cfg : Config
  /-- 10_state R18. -/
  seq : SeqState
  /-- 10_state R19. -/
  cur : Option Nat
  /-- 10_state R22: head first. -/
  q : List Nat
  /-- 10_state R23. -/
  nextTag : Nat
  /-- SPEED.hz, 10_state R24. -/
  speed : Nat
  /-- STOP.stop, 10_state R25. -/
  stop : Bool
  /-- 10_state R26. -/
  msgs : Memory
  /-- 10_state R31. -/
  busBusy : Bool
  /-- 10_state R32. -/
  orphan : Option Nat
  /-- 10_state R33: oldest first. -/
  log : List (Nat × Completion)
  /-- The submission outstanding at the bus port (43_sequencer R128, R144). -/
  bus : Option Submission
  /-- Completion signals raised and not yet read (60_exceptions R171). -/
  signals : List Nat
  /-- Requests whose producers are held at the full queue (43_sequencer R148), longest held first. -/
  blocked : List Instr
  /-- The clock of the timed refinement, microseconds (43_sequencer R138). -/
  now : Nat
  /-- When the standing Shutdown was raised, for the poll interval of the timed refinement (43_sequencer R140). -/
  stopAt : Nat
  /-- The model's own: the agents' coming steps, next first (log 1). -/
  sched : List Event
  /-- The model's own: what the block answered at its ports, oldest first (log 18). -/
  out : List Output
deriving DecidableEq, Repr

/-- The machine right after reset, that is, right after the instance is created (10_state R38, 70_reset R184 to R186). -/
def State.reset : State where
  cfg := defaultConfig
  seq := .stopped
  cur := none
  q := []
  nextTag := 0
  speed := defaultConfig.defaultSpeedHz
  stop := false
  msgs := []
  busBusy := false
  orphan := none
  log := []
  bus := none
  signals := []
  blocked := []
  now := 0
  stopAt := 0
  sched := []
  out := []

end Sys2Proof.Machine
end

