-- ==== Sys2Proof/Machine/Ops.lean ====
section
/-! DEFINITION. The named operations every meaning and every agent's step is written over: the message store, the request
port's results, submission, and the one operation that ends a message (the spec's error entry, 60_exceptions R175). -/

namespace Sys2Proof.Machine

/-! The message store (10_state R26). -/

/-- The record of a tag. -/
def memGet : Memory → Nat → Option Message
  | [], _ => none
  | (k, r) :: rest, t => if k = t then some r else memGet rest t

/-- The store with the record of a tag written, in the one canonical order (log 13). -/
def memPut : Memory → Nat → Message → Memory
  | [], t, m => [(t, m)]
  | (k, r) :: rest, t, m =>
    if t < k then (t, m) :: (k, r) :: rest
    else if t = k then (t, m) :: rest
    else (k, r) :: memPut rest t m

/-- The canonical form: tags strictly rising, so equal stores are equal lists (log 13). -/
abbrev Memory.wf (m : Memory) : Prop := (m.map Prod.fst).Pairwise (· < ·)

/-- Which of a message's byte buffers (00_scope R11). -/
inductive Buffer where
  | tx
  | rx
deriving DecidableEq, Repr

/-- One byte of a message's buffer; none where there is no such message, no value (10_state R28) or no such offset. -/
def byteAt (m : Memory) (t : Nat) (b : Buffer) (off : Nat) : Option Byte :=
  match memGet m t with
  | none => none
  | some r =>
    match b with
    | .tx => r.tx[off]?
    | .rx =>
      match r.rx with
      | none => none
      | some bytes => bytes[off]?

/-! Port answers. -/

/-- The state with one more answer at a port. -/
def State.emit (o : Output) (s : State) : State := { s with out := s.out ++ [o] }

/-- `raise Reject(kind)`: the fail-fast result, and no other change of state (00_scope R11, 60_exceptions R165). -/
def State.reject (k : RejectKind) (s : State) : State := s.emit (.rejected k)

/-- The queue holds `QUEUE_CAPACITY` entries (43_sequencer R127). -/
def State.queueFull (s : State) : Bool :=
  match s.cfg.queueCapacity with
  | none => false
  | some n => s.q.length == n

/-- The producer holds at a full queue (43_sequencer R148): the request waits, neither rejected nor dropped (log 10). -/
def State.hold (i : Instr) (s : State) : State := { s with blocked := s.blocked ++ [i] }

/-- The record acceptance creates (43_sequencer R127). -/
def newMessage (i : Instr) (tx : List Byte) (segs : List Descriptor) : Message where
  op := i.op
  addr := reqAddr i.construction
  count := reqCount i.construction
  values := reqValues i.construction
  tx := tx
  segs := segs
  rx := none
  deadline := none
  state := .pending
  result := .nothing

/-- Acceptance, one atomic step: the record under the next tag, the tag at the queue's tail, `Accepted(t)` (43_sequencer R127,
20_memory R46). -/
def State.accept (i : Instr) (tx : List Byte) (segs : List Descriptor) (s : State) : State :=
  { s with
    nextTag := s.nextTag + 1
    msgs := memPut s.msgs s.nextTag (newMessage i tx segs)
    q := s.q ++ [s.nextTag]
    out := s.out ++ [.accepted s.nextTag] }

/-! Dispatch. -/

/-- The head of the queue becomes the current message, with its record as dispatch leaves it (43_sequencer R130). -/
def State.takeHead (t : Nat) (rest : List Nat) (m : Message) (s : State) : State :=
  { s with q := rest, cur := some t, msgs := memPut s.msgs t m }

/-- The sequencer waits for the bus (43_sequencer R130). -/
def State.awaitBus (s : State) : State := { s with seq := .waitBus }

/-- An event put next in the schedule. -/
def State.scheduleNext (e : Event) (s : State) : State := { s with sched := e :: s.sched }

/-! The bus port. -/

/-- What `submit(t)` hands the bus: the list, the frame and the rate sampled from SPEED now (43_sequencer R132, R144). -/
def submissionOf (m : Message) (s : State) : Submission where
  segs := m.segs
  tx := m.tx
  hz := s.speed

/-- `submit(t)` (43_sequencer R132). -/
def State.submit (t : Nat) (m : Message) (s : State) : State :=
  { s with
    busBusy := true
    bus := some (submissionOf m s)
    seq := .inFlight
    out := s.out ++ [.submitted t (submissionOf m s)] }

/-- The bus port has answered: no submission is outstanding (43_sequencer R129, R133, R134, R139). -/
def State.releaseBus (s : State) : State := { s with busBusy := false, bus := none }

/-! The end of a message. -/

/-- `next()` (43_sequencer R135): the only return there is (60_exceptions R176). -/
def afterCompletion (stop : Bool) : SeqState := if stop then .stopped else .idle

/-- `complete(t, c)`, `cur <- none`, `next()`: the terminal state, the log entry, the signal and the completion event in one
step (60_exceptions R171, R175; 43_sequencer R133 to R137). `m` is the record with `rx` and `result` already written. -/
def State.finish (t : Nat) (m : Message) (c : Completion) (s : State) : State :=
  { s with
    msgs := memPut s.msgs t { m with state := c }
    log := s.log ++ [(t, c)]
    signals := s.signals ++ [t]
    out := s.out ++ [.completion t c]
    cur := none
    seq := afterCompletion s.stop }

end Sys2Proof.Machine
end

