-- ==== Sys2Proof/Machine/Segments.lean ====
section
/-! DEFINITION. The segmentation encoder's lists (42_segmentation R114 to R117), and what a list puts on the bus and brings back
(20_memory R41, 43_sequencer R128). -/

namespace Sys2Proof.Machine

/-- The settling-delay slot, segment 0 of every list (42_segmentation R115). -/
def settleSlot (cfg : Config) : Descriptor := ⟨cfg.settleDelayUs, 0, 0, 0⟩

/-- `segs1()` (42_segmentation R116). -/
def segs1 (cfg : Config) : List Descriptor := [settleSlot cfg, ⟨0, 0, 0, 6⟩]

/-- The loop of `segs2`: chunks of at most `limit` bytes from payload offset `o` to `p` (42_segmentation R117). The fuel `p` is
never used up when `limit` is positive, since each turn moves `o`. -/
def payloadChunks (limit p : Nat) : Nat → Nat → List Descriptor
  | 0, _ => []
  | fuel + 1, o =>
    if o < p then
      ⟨0, 4 + o, 4 + o, min limit (p - o)⟩ :: payloadChunks limit p fuel (o + min limit (p - o))
    else []

/-- `segs2(P)` (42_segmentation R117). -/
def segs2 (cfg : Config) (p : Nat) : List Descriptor :=
  [settleSlot cfg, ⟨0, 0, 0, 4⟩] ++ payloadChunks cfg.chunkLimit p p 0 ++ [⟨0, 4 + p, 4 + p, 2⟩]

/-- `ndesc(P)` (42_segmentation R120). -/
def ndesc (cfg : Config) (p : Nat) : Nat := 3 + ceilDiv p cfg.chunkLimit

/-- The bytes a submission sends, segment after segment in list order (20_memory R41). -/
def wireBytes (segs : List Descriptor) (tx : List Byte) : List Byte :=
  segs.flatMap (fun d => memRead tx d.txOffset d.length)

/-- Where the bytes received over a submission land: the k-th byte of a segment at `rxOffset + k` (20_memory R41). -/
def placeReceived : List Descriptor → List Byte → List Byte → List Byte
  | [], _, rx => rx
  | d :: ds, stream, rx =>
    placeReceived ds (stream.drop d.length) (memWrite rx d.rxOffset (stream.take d.length))

end Sys2Proof.Machine
end

