-- ==== Sys2Proof/Machine/Requests.lean ====
section
/-! DEFINITION. The request port (43_sequencer R127): the ordered checks of 42_segmentation R113, and Enqueue. -/

namespace Sys2Proof.Machine

/-- `check(req)` (42_segmentation R113): the first failing check's kind, or none when the request passes all seven. -/
def check (cfg : Config) (op : FunctionCode) (c : Construction) : Option RejectKind :=
  if admits op c = false then some .requestUnsupported
  else if op ≠ .idle ∧ reqCount c = 0 then some .requestUnsupported
  else if isBitWrite op = true ∧ (reqValues c).any (fun v => 1 < v.toNat) = true then some .requestUnsupported
  else if op = .writeBit ∧ cfg.onePhaseLayout = .addrByte ∧ 0xFF < (reqAddr c).toNat then some .requestUnsupported
  else if op = .writeRegister ∧ cfg.maxWriteRegs < reqCount c then some .requestTooLarge
  else if isTwoPhase op = true ∧ 255 < reqCount c then some .requestTooLarge
  else if isTwoPhase op = true ∧ cfg.maxDesc < ndesc cfg (plen op (reqCount c)) then some .requestTooLarge
  else none

/-- `Enqueue(req)` (43_sequencer R127): check, hold, or accept with the frame and list the instruction builds. -/
def enqueue (i : Instr) (tx : List Byte) (segs : List Descriptor) (s : State) :
    Host.Outcome State Fault Refusal :=
  match check s.cfg i.op i.construction with
  | some k => .next (s.reject k)
  | none => if s.queueFull then .next (s.hold i) else .next (s.accept i tx segs)

end Sys2Proof.Machine
end

