-- ==== Sys2Proof/Machine/IdleFamily.lean ====
section
/-! DEFINITION. Idle (41_framing R107). -/

namespace Sys2Proof.Machine

/-- Idle (41_framing R107): the one-phase keep-alive frame, queued like any message. -/
def execIdle (c : Construction) (s : State) : Host.Outcome State Fault Refusal :=
  enqueue (.idle c) (buildIdle s.cfg) (segs1 s.cfg) s

end Sys2Proof.Machine
end

