-- ==== Sys2Proof/Machine/ReadFamily.lean ====
section
/-! DEFINITION. ReadBit and ReadRegister (41_framing R99, R100). -/

namespace Sys2Proof.Machine

/-- ReadBit (41_framing R99): two-phase, a zero payload of `ceil_div(count, 8)` bytes. -/
def execReadBit (c : Construction) (s : State) : Host.Outcome State Fault Refusal :=
  enqueue (.readBit c) (buildReadBit s.cfg (reqAddr c) (reqCount c))
    (segs2 s.cfg (plen .readBit (reqCount c))) s

/-- ReadRegister (41_framing R100): two-phase, a zero payload of `2 * count` bytes. -/
def execReadRegister (c : Construction) (s : State) : Host.Outcome State Fault Refusal :=
  enqueue (.readRegister c) (buildReadRegister s.cfg (reqAddr c) (reqCount c))
    (segs2 s.cfg (plen .readRegister (reqCount c))) s

end Sys2Proof.Machine
end

