-- ==== Sys2Proof/Machine/UnsupportedFamily.lean ====
section
/-! DEFINITION. WriteCharacter, WriteString, ReadString and the sentinel Invalid: every construction naming one is rejected
RequestUnsupported, whatever its operands; that answer is the instruction's effect (41_framing R104 to R106, R108). -/

namespace Sys2Proof.Machine

/-- WriteCharacter (41_framing R104): `raise Reject(RequestUnsupported)`. -/
def execWriteCharacter (_c : Construction) (s : State) : Host.Outcome State Fault Refusal :=
  .next (s.reject .requestUnsupported)

/-- WriteString (41_framing R105): `raise Reject(RequestUnsupported)`. -/
def execWriteString (_c : Construction) (s : State) : Host.Outcome State Fault Refusal :=
  .next (s.reject .requestUnsupported)

/-- ReadString (41_framing R106): `raise Reject(RequestUnsupported)`. -/
def execReadString (_c : Construction) (s : State) : Host.Outcome State Fault Refusal :=
  .next (s.reject .requestUnsupported)

/-- Invalid (41_framing R108): `raise Reject(RequestUnsupported)`. -/
def execInvalid (_c : Construction) (s : State) : Host.Outcome State Fault Refusal :=
  .next (s.reject .requestUnsupported)

end Sys2Proof.Machine
end

