-- ==== Sys2Proof/Machine/WriteFamily.lean ====
section
/-! DEFINITION. WriteBit, WriteRegister and WriteBits (41_framing R101 to R103). -/

namespace Sys2Proof.Machine

/-- The value of a one-phase write: the one value of WriteOne. A request without a value never passes the checks. -/
def firstValue (c : Construction) : Half := (reqValues c).headD 0#16

/-- WriteBit (41_framing R101): one-phase, two descriptors. -/
def execWriteBit (c : Construction) (s : State) : Host.Outcome State Fault Refusal :=
  enqueue (.writeBit c) (buildWriteBit s.cfg (reqAddr c) (firstValue c)) (segs1 s.cfg) s

/-- WriteRegister (41_framing R102): two-phase, the values low byte first. -/
def execWriteRegister (c : Construction) (s : State) : Host.Outcome State Fault Refusal :=
  enqueue (.writeRegister c) (buildWriteRegister s.cfg (reqAddr c) (reqValues c))
    (segs2 s.cfg (plen .writeRegister (reqCount c))) s

/-- WriteBits (41_framing R103): two-phase, the bits LSB first. -/
def execWriteBits (c : Construction) (s : State) : Host.Outcome State Fault Refusal :=
  enqueue (.writeBits c) (buildWriteBits s.cfg (reqAddr c) (reqValues c))
    (segs2 s.cfg (plen .writeBits (reqCount c))) s

end Sys2Proof.Machine
end

