-- ==== Sys2Proof/Machine/Dispatch.lean ====
section
/-! DEFINITION. One arm per instruction. -/

namespace Sys2Proof.Machine

def exec (i : Instr) (s : State) : Host.Outcome State Fault Refusal :=
  match i with
  | .readBit c => Sys2Proof.Machine.execReadBit c s
  | .readRegister c => Sys2Proof.Machine.execReadRegister c s
  | .writeBit c => Sys2Proof.Machine.execWriteBit c s
  | .writeRegister c => Sys2Proof.Machine.execWriteRegister c s
  | .writeBits c => Sys2Proof.Machine.execWriteBits c s
  | .writeCharacter c => Sys2Proof.Machine.execWriteCharacter c s
  | .writeString c => Sys2Proof.Machine.execWriteString c s
  | .readString c => Sys2Proof.Machine.execReadString c s
  | .idle c => Sys2Proof.Machine.execIdle c s
  | .invalid c => Sys2Proof.Machine.execInvalid c s

end Sys2Proof.Machine
end

