-- ==== Sys2Proof/Machine/Flags.lean ====
section
/-! DEFINITION. The block has no flags or condition codes (10_state R34). What it shows instead: the STATUS view (R35) and the
numeric codes of states and port results (60_exceptions R166). -/

namespace Sys2Proof.Machine

/-- STATUS.seq: Stopped=0, Idle=1, WaitBus=2, InFlight=3 (10_state R35). -/
def seqCode : SeqState → BitVec 2
  | .stopped => 0
  | .idle => 1
  | .waitBus => 2
  | .inFlight => 3

/-- The STATUS view, hardwired to the state elements (10_state R35). -/
def State.status (s : State) : StatusView where
  seq := seqCode s.seq
  busBusy := s.busBusy
  qlen := s.q.length

/-- The codes of the message states (60_exceptions R166). -/
def completionCode : Completion → Nat
  | .pending => 0
  | .completed => 1
  | .timedOut => 2
  | .transportError => 3
  | .protocolError => 4

/-- The codes of the request-port and Start results (60_exceptions R166); the other answers have none. -/
def outputCode : Output → Option Nat
  | .accepted _ => some 16
  | .rejected .requestTooLarge => some 17
  | .rejected .requestUnsupported => some 18
  | .deviceUnavailable => some 32
  | .completion _ c => some (completionCode c)
  | .messageState _ c => some (completionCode c)
  | _ => none

/-- A state a message ends in (10_state R29). -/
def isTerminal (c : Completion) : Bool := c != .pending

end Sys2Proof.Machine
end

