-- ==== Sys2Proof/Machine/HostPort.lean ====
section
/-! DEFINITION. The host controller's operations (43_sequencer R144 to R147) and the host's reads (10_state R35, R39; 60_exceptions
R171; 70_reset R193). -/

namespace Sys2Proof.Machine

/-- `SetSpeed(hz)` (43_sequencer R145): 0 is refused and SPEED unchanged. -/
def setSpeedStep (hz : Nat) (s : State) : Host.Outcome State Fault Refusal :=
  if 0 < hz then .next { s with speed := hz } else .next (s.emit .speedRefused)

/-- `Shutdown()` (43_sequencer R146). The time of the first of several is kept, for R140. -/
def shutdownStep (s : State) : Host.Outcome State Fault Refusal :=
  .next { s with stop := true, stopAt := if s.stop then s.stopAt else s.now }

/-- `Start()` (43_sequencer R147): from Stopped only, and only if the bus port opens; else DeviceUnavailable (60_exceptions R169). -/
def startStep (opens : Bool) (s : State) : Host.Outcome State Fault Refusal :=
  if s.seq = .stopped then
    if opens then .next { s with stop := false, seq := .idle } else .next (s.emit .deviceUnavailable)
  else .next s

/-- A STATUS read (10_state R35): no side effect on the block (20_memory R47). -/
def readStatusStep (s : State) : Host.Outcome State Fault Refusal := .next (s.emit (.status s.status))

/-- A STATUS write: ignored (10_state R35). -/
def writeStatusStep (_value : Nat) (s : State) : Host.Outcome State Fault Refusal := .next s

/-- The holder of a tag reads the message's state; that clears the completion signal (60_exceptions R171). -/
def readStateStep (t : Nat) (s : State) : Host.Outcome State Fault Refusal :=
  match memGet s.msgs t with
  | none => .fault (.noSuchMessage t)
  | some m => .next { s.emit (.messageState t m.state) with signals := s.signals.filter (fun u => u != t) }

/-- The holder of a tag reads `rx`: a fault while Pending and where it holds no value (70_reset R193, 10_state R28). -/
def readRxStep (t : Nat) (s : State) : Host.Outcome State Fault Refusal :=
  match memGet s.msgs t with
  | none => .fault (.noSuchMessage t)
  | some m =>
    if m.state = .pending then .fault (.readWhilePending t)
    else
      match m.rx with
      | none => .fault (.rxNoValue t)
      | some bytes => .next (s.emit (.messageRx t bytes))

/-- The holder of a tag reads `result`: a fault while Pending (70_reset R193, 10_state R39). -/
def readResultStep (t : Nat) (s : State) : Host.Outcome State Fault Refusal :=
  match memGet s.msgs t with
  | none => .fault (.noSuchMessage t)
  | some m =>
    if m.state = .pending then .fault (.readWhilePending t)
    else .next (s.emit (.messageResult t m.result))

end Sys2Proof.Machine
end

