-- ==== Sys2Proof/Machine/Validator.lean ====
section
/-! DEFINITION. The reply validator and result decoder (44_validation R151 to R159): a total function of the message's opcode,
address, count and reply, and of the configuration (R160). -/

namespace Sys2Proof.Machine

/-- Byte 0 of the reply is the request's opcode (44_validation R151, R154). -/
def opcodeMatches (cfg : Config) (op : FunctionCode) (rx : List Byte) : Bool :=
  opcodeByte cfg.opcodes op == some (byteOf rx 0)

/-- The address a one-phase reply returns (44_validation R151, 30_encoding R77). -/
def oneReplyAddr (cfg : Config) (rx : List Byte) : Half :=
  match cfg.onePhaseLayout with
  | .addrByte => (byteOf rx 1).setWidth 16
  | .addrWord => le16 (byteOf rx 2) (byteOf rx 3)

/-- `validate1(m)` (44_validation R151). -/
def validate1 (cfg : Config) (op : FunctionCode) (addr : Half) (rx : List Byte) : Completion :=
  if opcodeMatches cfg op rx = false then .protocolError
  else if isRead op = true ∧ oneReplyAddr cfg rx ≠ addr then .protocolError
  else .completed

/-- The range of a two-phase reply its checksum covers (44_validation R153). -/
def replyCovered (cfg : Config) (p : Nat) (rx : List Byte) : List Byte :=
  match cfg.crcScope with
  | .headerPlusPayload => memRead rx 0 (4 + p)
  | .headerOnly => memRead rx 0 4

/-- `crc_ok(m)`: the checksum of the received bytes against the received trailer (44_validation R153). -/
def crcOk (cfg : Config) (p : Nat) (rx : List Byte) : Bool :=
  frameChecksum cfg (replyCovered cfg p rx) == le16 (byteOf rx (4 + p)) (byteOf rx (5 + p))

/-- `validate2(m)`: checksum, then opcode, then the address of a read (44_validation R152, R155). -/
def validate2 (cfg : Config) (op : FunctionCode) (addr : Half) (count : Nat) (rx : List Byte) : Completion :=
  if crcOk cfg (plen op count) rx = false then .protocolError
  else if opcodeMatches cfg op rx = false then .protocolError
  else if isRead op = true ∧ le16 (byteOf rx 2) (byteOf rx 3) ≠ addr then .protocolError
  else .completed

/-- The result of a completed message (44_validation R156 to R158). -/
def decodeResult (op : FunctionCode) (count : Nat) (rx : List Byte) : ReadResult :=
  match op with
  | .readBit => .bits ((List.range count).map (bitAt (rx.drop 4)))
  | .readRegister => .registers ((List.range count).map (regAt (rx.drop 4)))
  | _ => .nothing

/-- The state the reply selects (44_validation R159). -/
def validateState (cfg : Config) (op : FunctionCode) (addr : Half) (count : Nat) (rx : List Byte) : Completion :=
  if isTwoPhase op then validate2 cfg op addr count rx else validate1 cfg op addr rx

/-- `validate(m)` (44_validation R159): the terminal state, and the result if it is Completed. -/
def validate (cfg : Config) (op : FunctionCode) (addr : Half) (count : Nat) (rx : List Byte) :
    Completion × ReadResult :=
  match validateState cfg op addr count rx with
  | .completed => (.completed, decodeResult op count rx)
  | c => (c, .nothing)

end Sys2Proof.Machine
end

