-- ==== Sys2Proof/Machine/Sequencer.lean ====
section
/-! DEFINITION. The bus transfer sequencer, the bus's answer and the deadline (43_sequencer R126 to R139). A step that is not
enabled leaves the block as it is (log 9). -/

namespace Sys2Proof.Machine

/-- The record with its deadline armed at dispatch (43_sequencer R130, R138). -/
def armed (s : State) (m : Message) : Message := { m with deadline := some (s.now + s.cfg.timeoutUs) }

/-- Dispatch of the head of the queue (43_sequencer R130): deadline armed first, then WaitBus or submission. -/
def dispatchHead (s : State) : Host.Outcome State Fault Refusal :=
  match s.q with
  | [] => .next s
  | t :: rest =>
    match memGet s.msgs t with
    | none => .fault (.danglingTag t)
    | some m =>
      if s.busBusy then .next (s.takeHead t rest (armed s m)).awaitBus
      else .next ((s.takeHead t rest (armed s m)).submit t (armed s m))

/-- The submission that ends WaitBus (43_sequencer R131). -/
def submitCurrent (s : State) : Host.Outcome State Fault Refusal :=
  match s.cur with
  | none => .next s
  | some t =>
    match memGet s.msgs t with
    | none => .fault (.danglingTag t)
    | some m => .next (s.submit t m)

/-- The sequencer has a step of its own enabled (43_sequencer R126, R140). -/
def sequencerEnabled (s : State) : Bool :=
  match s.seq with
  | .stopped => false
  | .idle => s.stop || !s.q.isEmpty
  | .waitBus => !s.busBusy
  | .inFlight => false

/-- The sequencer's step (43_sequencer R126): stop observed in Idle (R146), dispatch (R130), or submission (R131). -/
def sequencerStep (s : State) : Host.Outcome State Fault Refusal :=
  match s.seq with
  | .stopped => .next s
  | .idle => if s.stop then .next { s with seq := .stopped } else dispatchHead s
  | .waitBus => if s.busBusy then .next s else submitCurrent s
  | .inFlight => .next s

/-- The deadline lets the expiry step be taken: always in the untimed model (43_sequencer R137), at `now ≥ deadline` in the timed
refinement (R138). -/
def deadlineReached (s : State) (m : Message) : Bool :=
  if s.cfg.timed then
    match m.deadline with
    | none => false
    | some d => decide (d ≤ s.now)
  else true

/-- The message in flight expires (43_sequencer R137): its transfer, if submitted, stays on the bus as the orphan. -/
def expireMessage (t : Nat) (m : Message) (s : State) : State :=
  ({ s with orphan := if s.seq = SeqState.inFlight then some t else s.orphan }).finish t m .timedOut

/-- The timer has its step enabled: a message is served and its deadline lets it expire (43_sequencer R137, R138, R149). -/
def expiryEnabled (s : State) : Bool :=
  match s.cur with
  | none => false
  | some t =>
    if s.seq = .waitBus ∨ s.seq = .inFlight then
      match memGet s.msgs t with
      | none => false
      | some m => deadlineReached s m
    else false

/-- The timer's step (43_sequencer R137). -/
def expireStep (s : State) : Host.Outcome State Fault Refusal :=
  match s.cur with
  | none => .next s
  | some t =>
    if s.seq = .waitBus ∨ s.seq = .inFlight then
      match memGet s.msgs t with
      | none => .fault (.danglingTag t)
      | some m => if deadlineReached s m then .next (expireMessage t m s) else .next s
    else .next s

/-- The answers the bus may choose: `Ok` with as many bytes as the outstanding frame, or `Fail` (43_sequencer R129). -/
def answerFits (s : State) (a : BusAnswer) : Bool :=
  match s.bus with
  | none => false
  | some sub =>
    match a with
    | .ok bytes => bytes.length == sub.tx.length
    | .fail => true

/-- The record an `Ok` answer leaves, but for its state: the reply and the result (43_sequencer R134). -/
def received (s : State) (m : Message) (bytes : List Byte) : Message :=
  { m with rx := some bytes, result := (validate s.cfg m.op m.addr m.count bytes).2 }

/-- The answer to the current message's submission (43_sequencer R133, R134). -/
def answerCurrent (t : Nat) (m : Message) (a : BusAnswer) (s : State) : State :=
  match a with
  | .fail => s.releaseBus.finish t m .transportError
  | .ok bytes =>
    s.releaseBus.finish t (received s m bytes) (validate s.cfg m.op m.addr m.count bytes).1

/-- The answer to an orphaned transfer: discarded (43_sequencer R139). -/
def State.discardOrphan (s : State) : State := { s.releaseBus with orphan := none }

/-- The bus's step (43_sequencer R129). In the timed refinement an answer that finds the deadline reached lets the expiry go
first and stays the bus's next step (R138). -/
def busStep (a : BusAnswer) (s : State) : Host.Outcome State Fault Refusal :=
  if s.busBusy && answerFits s a then
    match s.orphan with
    | some _ => .next s.discardOrphan
    | none =>
      match s.cur with
      | none => .next s
      | some t =>
        if s.seq = .inFlight then
          match memGet s.msgs t with
          | none => .fault (.danglingTag t)
          | some m =>
            if s.cfg.timed && deadlineReached s m then
              .next ((expireMessage t m s).scheduleNext (.bus a))
            else .next (answerCurrent t m a s)
        else .next s
  else .next s

/-- The clock may advance this far: a Shutdown standing in Idle is observed within the poll interval (43_sequencer R140). Nothing
else holds the clock back: that any time may pass between an Enqueue in Idle and its dispatch, which only becomes enabled, is how
the model reads the spec's waking "at once". DESIGN CHOICE (log 29). -/
def tickAllowed (s : State) (micros : Nat) : Bool :=
  !(s.seq == .idle && s.stop) || decide (s.now + micros ≤ s.stopAt + s.cfg.pollIntervalUs)

/-- The clock's step, in the timed refinement only (43_sequencer R138). -/
def tickStep (micros : Nat) (s : State) : Host.Outcome State Fault Refusal :=
  if s.cfg.timed && tickAllowed s micros then .next { s with now := s.now + micros } else .next s

end Sys2Proof.Machine
end

