-- ==== Sys2Proof/Machine/Agents.lean ====
section
/-! DEFINITION. One step of one agent (00_scope R14): the next event of the schedule, or, when the schedule is exhausted, the
step the block itself has enabled (log 1). -/

namespace Sys2Proof.Machine

/-- The request a producer presents: the term itself, or what its frame's bytes decode to (log 3). -/
def fetch (cfg : Config) : Presented → Except DecodeError Instr
  | .term i => .ok i
  | .frame bytes => decodeWhole cfg bytes

/-- A producer's step (43_sequencer R127). Bytes that are no request are refused by name (log 19). -/
def presentStep (p : Presented) (s : State) : Host.Outcome State Fault Refusal :=
  match fetch s.cfg p with
  | .ok i => exec i s
  | .error e => .refused (.badFrame e)

/-- A held producer's Enqueue, enabled once the queue has room (43_sequencer R148, log 10). -/
def resumeStep (k : Nat) (s : State) : Host.Outcome State Fault Refusal :=
  match s.blocked[k]? with
  | none => .next s
  | some i => if s.queueFull then .next s else exec i { s with blocked := s.blocked.eraseIdx k }

/-- The step of the agent an event names. -/
def eventStep (e : Event) (s : State) : Host.Outcome State Fault Refusal :=
  match e with
  | .present p => presentStep p s
  | .resume k => resumeStep k s
  | .sequencer => sequencerStep s
  | .bus a => busStep a s
  | .expire => expireStep s
  | .tick micros => tickStep micros s
  | .setSpeed hz => setSpeedStep hz s
  | .shutdown => shutdownStep s
  | .start opens => startStep opens s
  | .readStatus => readStatusStep s
  | .writeStatus value => writeStatusStep value s
  | .readState t => readStateStep t s
  | .readRx t => readRxStep t s
  | .readResult t => readResultStep t s

/-- With nothing scheduled: the sequencer's step if it has one, else the longest-held producer if there is room, else the block
waits (43_sequencer R140; log 1). -/
def quietStep (s : State) : Host.Outcome State Fault Refusal :=
  if sequencerEnabled s then sequencerStep s else resumeStep 0 s

/-- One step of the machine. -/
def agentStep (s : State) : Host.Outcome State Fault Refusal :=
  match s.sched with
  | [] => quietStep s
  | e :: rest => eventStep e { s with sched := rest }

end Sys2Proof.Machine
end

