-- ==== Sys2Proof/Machine/Step.lean ====
section
/-! DEFINITION. The step function and the place an instruction is fetched from. -/

namespace Sys2Proof.Machine

/-- One step of the machine (00_scope R15): one port operation or one sequencer transition. -/
def step (s : State) : Host.Outcome State Fault Refusal := agentStep s

/-- The instruction of a table word presented at the request port by the very next step (log 2). -/
def State.withFetchWord (s : State) (nbits w : Nat) : State :=
  s.scheduleNext (.present (.frame (tableImage s.cfg nbits w)))

end Sys2Proof.Machine
end

