-- ==== Sys2Proof/Machine/Attach.lean ====
section
/-! DEFINITION. The host side the spec writes down: the API calls as requests (30_encoding R63), and the attach sequence (70_reset
R190, 30_encoding R82). The block's own step never reads these (log 24). -/

namespace Sys2Proof.Machine

/-- `readRegisters(addr, count)` (30_encoding R63). -/
def apiReadRegisters (addr : Half) (count : Nat) : Instr := .readRegister (.read addr count)

/-- `readBits(addr, count)` (30_encoding R63). -/
def apiReadBits (addr : Half) (count : Nat) : Instr := .readBit (.read addr count)

/-- `writeRegisters(addr, values)` (30_encoding R63). -/
def apiWriteRegisters (addr : Half) (values : List Half) : Instr := .writeRegister (.writeMany addr values)

/-- `writeBit(addr, value)` (30_encoding R63). -/
def apiWriteBit (addr value : Half) : Instr := .writeBit (.writeOne addr value)

/-- `writeBits(addr, values)` (30_encoding R63). -/
def apiWriteBits (addr : Half) (values : List Half) : Instr := .writeBits (.writeMany addr values)

/-- `idle()` (30_encoding R63). -/
def apiIdle : Instr := .idle .noOperands

/-- The version block: `VERSION_LEN` registers at `VERSION_ADDR` (00_scope R6, 20_memory R49). -/
def versionRead : Instr := apiReadRegisters 1000 5

/-- Where the host is in `attach()` (70_reset R190). -/
inductive AttachPhase where
  /-- Before step (1). -/
  | begin
  /-- Start issued, when the block had given this many answers: what is answered after them is this Start's. -/
  | started (answered : Nat)
  /-- The version read presented, to be accepted under this tag; waiting for its completion. -/
  | waiting (tag : Nat)
  /-- SetSpeed issued: attach has succeeded (log 30). -/
  | attached
  /-- Attach has failed. -/
  | failed
deriving DecidableEq, Repr

/-- The host's next command, if it issues one, and its next phase (70_reset R190). `boardSpeed` is the host's decode of the five
registers, out of the block's scope (00_scope R5); `opens` is whether the device opens. Only the answer to attach's own Start fails
it, so a host may try again after an earlier failure (60_exceptions R169). Any terminal state of the version read but Completed
fails attach, and the host then issues Shutdown. Attach counts as succeeded once SetSpeed is issued, also where the host's speed
is 0 and SetSpeed is refused: the spec is silent there. DESIGN CHOICE (log 30). A version read that the request port itself rejects
(a configured `MAX_DESC` or `CHUNK_LIMIT` too small for it) gets no tag, and attach goes on waiting: the spec is silent there too.
DESIGN CHOICE (log 31). -/
def attachNext (boardSpeed : List Half → Nat) (opens : Bool) (phase : AttachPhase) (s : State) :
    AttachPhase × Option Event :=
  match phase with
  | .begin => (.started s.out.length, some (.start opens))
  | .started answered =>
    if Output.deviceUnavailable ∈ s.out.drop answered then (.failed, none)
    else (.waiting s.nextTag, some (.present (.term versionRead)))
  | .waiting t =>
    match memGet s.msgs t with
    | none => (.waiting t, none)
    | some m =>
      match m.state, m.result with
      | .pending, _ => (.waiting t, none)
      | .completed, .registers values => (.attached, some (.setSpeed (boardSpeed values)))
      | _, _ => (.failed, some .shutdown)
  | .attached => (.attached, none)
  | .failed => (.failed, none)

end Sys2Proof.Machine
end

