-- ==== Sys2Proof/Machine/Fairness.lean ====
section
/-! DEFINITION. Endless runs and weak fairness (43_sequencer R149): in the untimed model delays and deadlines are carried only so
(00_scope R15, 70_reset R199). An endless run is told by two sequences, the events supplied and the states; neither is part of
State. -/

namespace Sys2Proof.Machine

/-- The state with the next event supplied, if its own schedule has run out (log 25). -/
def feed (e : Event) (s : State) : State :=
  match s.sched with
  | [] => s.scheduleNext e
  | _ :: _ => s

/-- The states `run 0`, `run 1`, … are an endless run: one step leads from each to the next, the n-th supplied event being taken
where the schedule has run out. Any agent may step at any time (43_sequencer, opening). -/
def EndlessRun (supply : Nat → Event) (run : Nat → State) : Prop :=
  ∀ n, step (feed (supply n) (run n)) = .next (run (n + 1))

/-- The n-th step of the run is the one this event names. -/
def Taken (supply : Nat → Event) (run : Nat → State) (e : Event) (n : Nat) : Prop :=
  (feed (supply n) (run n)).sched.head? = some e

/-- Weak fairness of an agent: a step of it that stays enabled is eventually taken (43_sequencer R149). -/
def WeaklyFair (enabled : State → Bool) (e : Event) (supply : Nat → Event) (run : Nat → State) : Prop :=
  ∀ n, (∀ k, n ≤ k → enabled (run k) = true) → ∃ k, n ≤ k ∧ Taken supply run e k

/-- The timer agent is weakly fair (43_sequencer R149). -/
abbrev FairTimer (supply : Nat → Event) (run : Nat → State) : Prop := WeaklyFair expiryEnabled .expire supply run

/-- The sequencer is weakly fair (43_sequencer R149). -/
abbrev FairSequencer (supply : Nat → Event) (run : Nat → State) : Prop :=
  WeaklyFair sequencerEnabled .sequencer supply run

/-- The run is one of the untimed model, or its clock passes every time (43_sequencer R138; log 25). -/
def DeadlinesCome (run : Nat → State) : Prop :=
  (run 0).cfg.timed = false ∨ ∀ time, ∃ n, time ≤ (run n).now

end Sys2Proof.Machine
end

