-- ==== Sys2Proof/Machine/System.lean ====
section
/-! DEFINITION. Several instances (20_memory R54, 60_exceptions R181): one block per bus index, sharing no state. -/

namespace Sys2Proof.Machine

/-- One instance with its bus index (0 to 2, `NODE_COUNT` = 3) and the device it is bound to (10_state R37). -/
structure Node where
  index : Fin 3
  device : Nat
  block : State
deriving DecidableEq, Repr

/-- The host's instances. -/
abbrev System := List Node

/-- One instance per bus index, and no two on one bus device (70_reset R189, R197). -/
def System.legal (sys : System) : Bool :=
  decide ((sys.map Node.index).Nodup) && decide ((sys.map Node.device).Nodup)

/-- The system with the block of one index replaced. -/
def System.setBlock (sys : System) (k : Fin 3) (b : State) : System :=
  sys.map (fun n => if n.index = k then { n with block := b } else n)

/-- The block of an index. -/
def System.blockOf (sys : System) (k : Fin 3) : Option State :=
  (sys.find? (fun n => n.index = k)).map Node.block

/-- A step of the instance of one index: the others keep still, in any interleaving (20_memory R54). A system with two instances
on one device has no meaning (70_reset R197). An index with no instance takes no step. -/
def systemStep (k : Fin 3) (sys : System) : Host.Outcome System Fault Refusal :=
  if sys.legal then
    match sys.blockOf k with
    | none => .next sys
    | some b =>
      match step b with
      | .next b' => .next (sys.setBlock k b')
      | .fault f => .fault f
      | .refused r => .refused r
  else .refused .sharedDevice

/-- An instance is created for a bus index when its node is attached: that is its reset (70_reset R184, R189). An index or a device
that is taken makes a system with no meaning (R197). -/
def createInstance (k : Fin 3) (device : Nat) (sys : System) : Host.Outcome System Fault Refusal :=
  if System.legal (sys ++ [⟨k, device, State.reset⟩]) then .next (sys ++ [⟨k, device, State.reset⟩])
  else .refused .sharedDevice

/-- Tear-down ends an instance, and nothing of it persists (70_reset R188). -/
def tearDown (k : Fin 3) (sys : System) : System := sys.filter (fun n => n.index ≠ k)

end Sys2Proof.Machine
end

