-- ==== Sys2Proof/Safety.lean ====
section
/-! DEFINITION. What counts as a safe run: the invariant of the block, in the rules' own terms, and the words the statements use. -/

namespace Sys2Proof.Safety

open Sys2Proof.Machine

/-- The sequencer serves a message (10_state R19). -/
abbrev serving (s : State) : Prop := s.seq = .waitBus ∨ s.seq = .inFlight

/-- A message still as acceptance left it (43_sequencer R127). -/
structure Untouched (m : Message) : Prop where
  pending : m.state = .pending
  noDeadline : m.deadline = none
  noRx : m.rx = none
  noResult : m.result = .nothing

/-- A message dispatched and not yet ended (43_sequencer R130). -/
structure Dispatched (m : Message) : Prop where
  pending : m.state = .pending
  armed : m.deadline.isSome = true
  noRx : m.rx = none
  noResult : m.result = .nothing

/-- The message store holds exactly the accepted tags, in canonical form (10_state R23, R26). -/
structure StoreInv (s : State) : Prop where
  canonical : Memory.wf s.msgs
  below : ∀ t m, memGet s.msgs t = some m → t < s.nextTag
  present : ∀ t, t < s.nextTag → (memGet s.msgs t).isSome = true

/-- What a message's terminal state says of its buffers (10_state R28, R29; 43_sequencer R133, R134, R137). -/
structure RecordInv (s : State) : Prop where
  rxHeld : ∀ t m, memGet s.msgs t = some m →
    (m.rx.isSome = true ↔ (m.state = .completed ∨ m.state = .protocolError))
  rxLength : ∀ t m bytes, memGet s.msgs t = some m → m.rx = some bytes → bytes.length = m.tx.length
  resultHeld : ∀ t m, memGet s.msgs t = some m → m.state ≠ .completed → m.result = .nothing

/-- The queue and the current message (10_state R19, R22; 43_sequencer R136, R141). -/
structure QueueInv (s : State) : Prop where
  sorted : s.q.Pairwise (· < ·)
  queued : ∀ t, t ∈ s.q → ∃ m, memGet s.msgs t = some m ∧ Untouched m
  curServing : s.cur.isSome = true ↔ serving s
  current : ∀ t, s.cur = some t → ∃ m, memGet s.msgs t = some m ∧ Dispatched m
  curFirst : ∀ t u, s.cur = some t → u ∈ s.q → t < u
  pendingOwned : ∀ t m, memGet s.msgs t = some m → m.state = .pending → t ∈ s.q ∨ s.cur = some t

/-- The completion log (10_state R33; 43_sequencer R141, R142). -/
structure LogInv (s : State) : Prop where
  increasing : (s.log.map Prod.fst).Pairwise (· < ·)
  entries : ∀ t c, (t, c) ∈ s.log → c ≠ .pending ∧ ∃ m, memGet s.msgs t = some m ∧ m.state = c
  complete : ∀ t m, memGet s.msgs t = some m → m.state ≠ .pending → (t, m.state) ∈ s.log
  beforeCur : ∀ t c u, (t, c) ∈ s.log → s.cur = some u → t < u
  beforeQueue : ∀ t c u, (t, c) ∈ s.log → u ∈ s.q → t < u

/-- The outstanding submission and its owner (10_state R31, R32; 43_sequencer R136). -/
structure BusInv (s : State) : Prop where
  owned : s.busBusy = true ↔ (s.seq = .inFlight ∨ s.orphan.isSome = true)
  oneOwner : ¬ (s.seq = .inFlight ∧ s.orphan.isSome = true)
  outstanding : s.bus.isSome = s.busBusy
  curTransfer : ∀ t m sub, s.seq = .inFlight → s.cur = some t → memGet s.msgs t = some m → s.bus = some sub →
    sub.tx = m.tx ∧ sub.segs = m.segs
  orphanTransfer : ∀ t, s.orphan = some t →
    ∃ m, memGet s.msgs t = some m ∧ m.state = .timedOut ∧
      ∀ sub, s.bus = some sub → sub.tx = m.tx ∧ sub.segs = m.segs

/-- The invariant of the block. -/
structure Inv (s : State) : Prop where
  store : StoreInv s
  records : RecordInv s
  queue : QueueInv s
  logged : LogInv s
  bus : BusInv s
  speed : 0 < s.speed

/-- The descriptor list of an accepted request (42_segmentation R114, R116, R117). -/
def segsFor (cfg : Config) (op : FunctionCode) (count : Nat) : List Descriptor :=
  if isTwoPhase op then segs2 cfg (plen op count) else segs1 cfg

/-- The reference limits of 00_scope R6: `CHUNK_LIMIT` 64, `MAX_DESC` 7, `MAX_WRITE_REGS` 126. -/
structure RefLimits (cfg : Config) : Prop where
  chunk : cfg.chunkLimit = 64
  desc : cfg.maxDesc = 7
  regs : cfg.maxWriteRegs = 126

/-- The state after a message is entered under the next tag: its record, its place at the queue's tail, the next tag, the answer
`Accepted(t)`; nothing else differs (43_sequencer R127). -/
def entered (s : State) (m : Message) : State :=
  { s with
    nextTag := s.nextTag + 1
    msgs := memPut s.msgs s.nextTag m
    q := s.q ++ [s.nextTag]
    out := s.out ++ [.accepted s.nextTag] }

/-- The record an accepted request is entered with (43_sequencer R127), its frame read off the encoding tables of 30_encoding. -/
def acceptedRecord (cfg : Config) (i : Instr) : Message where
  op := i.op
  addr := reqAddr i.construction
  count := reqCount i.construction
  values := reqValues i.construction
  tx := encode cfg i
  segs := segsFor cfg i.op (reqCount i.construction)
  rx := none
  deadline := none
  state := .pending
  result := .nothing

/-- Two records of one request: what acceptance wrote once is the same (10_state R26, R27). -/
structure SameRequest (m m' : Message) : Prop where
  op : m'.op = m.op
  addr : m'.addr = m.addr
  count : m'.count = m.count
  values : m'.values = m.values
  tx : m'.tx = m.tx
  segs : m'.segs = m.segs

/-- Every message is some request that passed the checks, with that request's frame and list (41_framing R111). -/
def RequestInv (s : State) : Prop :=
  ∀ t m, memGet s.msgs t = some m →
    ∃ i : Instr, check s.cfg i.op i.construction = none ∧ SameRequest (acceptedRecord s.cfg i) m

/-- The data segments, in order, start where the previous ended: from offset `o` to offset `e` (42_segmentation R122 e). -/
def tiles : Nat → List Descriptor → Nat → Prop
  | o, [], e => o = e
  | o, d :: ds, e => d.txOffset = o ∧ tiles (o + d.length) ds e

/-- The tag of a submission among the port answers. -/
def submittedTag : Output → Option Nat
  | .submitted t _ => some t
  | _ => none

/-- The tags submitted so far, oldest first. -/
def submittedTags (s : State) : List Nat := s.out.filterMap submittedTag

/-- Submissions reach the bus in acceptance order and no message twice (20_memory R53 b, 43_sequencer R143). -/
structure SubmitInv (s : State) : Prop where
  increasing : (submittedTags s).Pairwise (· < ·)
  beforeQueue : ∀ t u, t ∈ submittedTags s → u ∈ s.q → t < u
  waiting : ∀ t u, t ∈ submittedTags s → s.cur = some u → s.seq = .waitBus → t < u
  inFlight : ∀ t u, t ∈ submittedTags s → s.cur = some u → s.seq = .inFlight → t ≤ u
  accepted : ∀ t, t ∈ submittedTags s → t < s.nextTag

/-- The state with the timed refinement switched off (43_sequencer R138). -/
def untimed (s : State) : State := { s with cfg := { s.cfg with timed := false } }

/-- A record with its deadline kept as the untimed model keeps it: a marker that the timer is armed (10_state R30). -/
def eraseDeadline (m : Message) : Message := { m with deadline := m.deadline.map (fun _ => 0) }

/-- What the untimed model sees of a state: all of it but the refinement's clock, its switch, the numbers of the deadlines, and the
schedule still to come. -/
def eraseTime (s : State) : State :=
  { s with
    cfg := { s.cfg with timed := false }
    msgs := s.msgs.map (fun e => (e.1, eraseDeadline e.2))
    now := 0
    stopAt := 0
    sched := [] }

/-- The event is not a host read of a message and not bytes still to be decoded. -/
def isBlockEvent : Event → Bool
  | .present (.frame _) => false
  | .readState _ => false
  | .readRx _ => false
  | .readResult _ => false
  | _ => true

/-- The state of the message under a tag, if there is one. -/
def stateOf (s : State) (t : Nat) : Option Completion := (memGet s.msgs t).map Message.state

end Sys2Proof.Safety
end

