-- ==== Sys2Proof/WellFormed.lean ====
section
/-! DEFINITION. Which requests have a frame of their own to be read back from (30_encoding R66 to R72). This is not the request
check of 42_segmentation R113, which is part of an instruction's meaning: a well-formed request may still be rejected. -/

namespace Sys2Proof

/-- A WriteBit's operands fit the one-phase frame (30_encoding R75): address in a byte under AddrByte, value in a byte under
AddrWord. -/
def writeBitFits (layout : OnePhaseLayout) (addr value : Half) : Bool :=
  match layout with
  | .addrByte => addr.toNat ≤ 0xFF
  | .addrWord => value.toNat ≤ 0xFF

/-- The request can be written as a frame from which it is read back: its construction is one the frame stands for, its count
fits the one-byte length field (R70), its bits are 0 or 1 (R71). A one-value register or bit write is well formed as its
WriteMany form, its other spelling (R63, log 27). The opcodes without a frame layout are their bare opcode byte (log 16);
Invalid has no wire value (R66). -/
def Instr.wellFormed (cfg : Config) : Instr → Bool
  | .readBit (.read _ count) => count ≤ 255
  | .readBit _ => false
  | .readRegister (.read _ count) => count ≤ 255
  | .readRegister _ => false
  | .writeBit (.writeOne addr value) => writeBitFits cfg.onePhaseLayout addr value
  | .writeBit _ => false
  | .writeRegister (.writeMany _ values) => values.length ≤ 255
  | .writeRegister _ => false
  | .writeBits (.writeMany _ values) => values.length ≤ 255 && values.all (fun v => v.toNat ≤ 1)
  | .writeBits _ => false
  | .writeCharacter .noOperands => true
  | .writeCharacter _ => false
  | .writeString .noOperands => true
  | .writeString _ => false
  | .readString .noOperands => true
  | .readString _ => false
  | .idle .noOperands => true
  | .idle _ => false
  | .invalid _ => false

end Sys2Proof
end

