-- ==== Sys2Proof/Certificates/Slice0/Obligations.lean ====
section
/-! DEFINITION. The statements about the model, for the provers. -/

open Sys2Proof Sys2Proof.Machine Sys2Proof.Safety

/-! Encoding. -/

/-- Every well-formed request is read back from its frame, whatever follows the frame, under every injective `OPCODE`, layout and
scope (30_encoding R66 to R72, R75, R76). That a frame is the words of a request (log 3), that WriteCharacter, WriteString and
ReadString are one byte, since no frame layout of theirs exists (log 16), and that a one-value WriteRegister or WriteBits is read
back as its WriteMany form, the WriteOne form being its other spelling and no well-formed word here (log 27), is the model's. -/
def Obligations.DecodeReadsBackEncode : Prop :=
  ∀ (cfg : Config) (i : Instr) (rest : List Byte), cfg.opcodes.injective → i.wellFormed cfg = true →
    decode cfg (encode cfg i ++ rest) = .ok (i, rest)

/-- What the decoder reads is well formed, and the bytes it used are that request's frame but for the two trailer bytes, which
carry no operand (30_encoding R75, R76). That the trailer is not compared (log 3), and that one bare byte is WriteCharacter,
WriteString or ReadString (log 16), is the model's choice. -/
def Obligations.DecodedBytesAreTheFrame : Prop :=
  ∀ (cfg : Config) (bytes rest : List Byte) (i : Instr), decode cfg bytes = .ok (i, rest) →
    i.wellFormed cfg = true ∧
    ∃ used, bytes = used ++ rest ∧ used.length = (encode cfg i).length ∧
      ∀ k, (k < 4 ∨ k + 2 < used.length) → used[k]? = (encode cfg i)[k]?

/-- Words of spec/opcode_table.json decode to their rows' instructions under the default `OPCODE`: sample words, with operands. The
default `OPCODE` is presumed (log 4); that 0x41, 0x64 and 0x65 are bare opcodes (log 16), and that a shorter word is completed by a
zero payload and a trailer which is not compared (log 3), is the model's choice. -/
def Obligations.SampleWordsDecode : Prop :=
  decodeTableWord 32 0x0020_0A_01 = some (.readBit (.read 0x0020 10)) ∧
  decodeTableWord 32 0x03E8_05_04 = some (.readRegister (.read 1000 5)) ∧
  decodeTableWord 48 0x5D11_0001_05_05 = some (.writeBit (.writeOne 5 1)) ∧
  decodeTableWord 64 0x92F0_BEEF_0007_01_06 = some (.writeRegister (.writeMany 7 [0xBEEF])) ∧
  decodeTableWord 56 0xF6E4_0B_0003_04_0F = some (.writeBits (.writeMany 3 [1, 1, 0, 1])) ∧
  decodeTableWord 8 0x41 = some (.writeCharacter .noOperands) ∧
  decodeTableWord 8 0x64 = some (.writeString .noOperands) ∧
  decodeTableWord 8 0x65 = some (.readString .noOperands) ∧
  decodeTableWord 48 0xD830_0000_00_FA = some (.idle .noOperands) ∧
  decodeTableWord 8 0x00 = none

/-! Checksum unit. -/

/-- 40_checksum R87, for every table. -/
def Obligations.ChecksumCarriesForward : Prop :=
  ∀ (table : Vector Half 256) (a b : List Byte) (s : Half),
    checksum table (a ++ b) s = checksum table b (checksum table a s)

/-- 40_checksum R89: the listed table is the one the loop generates, and the table step is eight rounds of the loop from
`c ^ zext_16(b)`. -/
def Obligations.TableStepIsEightRounds : Prop :=
  (∀ i : Fin 256, defaultCrcTable.get i = crcEntry i) ∧
  ∀ (c : Half) (b : Byte), crcStep defaultCrcTable c b = crcRounds 8 (c ^^^ b.setWidth 16)

/-- 40_checksum R92 (a), (b): empty input gives the seed, and leading zero bytes do not change a checksum seeded with 0. -/
def Obligations.ChecksumOfZeros : Prop :=
  (∀ (table : Vector Half 256) (s : Half), checksum table [] s = s) ∧
  (∀ n, checksum defaultCrcTable (zeros n) 0#16 = 0#16) ∧
  ∀ (n : Nat) (bytes : List Byte),
    checksum defaultCrcTable (zeros n ++ bytes) 0#16 = checksum defaultCrcTable bytes 0#16

/-! The request port. -/

/-- Which requests pass the checks under the reference limits (42_segmentation R113, R121, R124, R125; 30_encoding R67). -/
def Obligations.AcceptedRequestsExactly : Prop :=
  ∀ (cfg : Config) (i : Instr), RefLimits cfg →
    (check cfg i.op i.construction = none ↔
      (∃ a n, i = .readBit (.read a n) ∧ 1 ≤ n ∧ n ≤ 255) ∨
      (∃ a n, i = .readRegister (.read a n) ∧ 1 ≤ n ∧ n ≤ 128) ∨
      (∃ a v, i = .writeBit (.writeOne a v) ∧ v.toNat ≤ 1 ∧
        (cfg.onePhaseLayout = .addrByte → a.toNat ≤ 0xFF)) ∨
      (∃ a v, i = .writeRegister (.writeOne a v)) ∨
      (∃ a vs, i = .writeRegister (.writeMany a vs) ∧ 1 ≤ vs.length ∧ vs.length ≤ 126) ∨
      (∃ a v, i = .writeBits (.writeOne a v) ∧ v.toNat ≤ 1) ∨
      (∃ a vs, i = .writeBits (.writeMany a vs) ∧ 1 ≤ vs.length ∧ vs.length ≤ 255 ∧ ∀ v ∈ vs, v.toNat ≤ 1) ∨
      i = .idle .noOperands)

/-- Which requests are reported RequestTooLarge under the reference limits; every other rejection is RequestUnsupported
(42_segmentation R113, R121, R124, R125). -/
def Obligations.TooLargeRequestsExactly : Prop :=
  ∀ (cfg : Config) (i : Instr), RefLimits cfg →
    (check cfg i.op i.construction = some .requestTooLarge ↔
      (∃ a n, i = .readBit (.read a n) ∧ 256 ≤ n) ∨
      (∃ a n, i = .readRegister (.read a n) ∧ 129 ≤ n) ∨
      (∃ a vs, i = .writeRegister (.writeMany a vs) ∧ 127 ≤ vs.length) ∨
      (∃ a vs, i = .writeBits (.writeMany a vs) ∧ 256 ≤ vs.length ∧ ∀ v ∈ vs, v.toNat ≤ 1))

/-- A request that fails a check is answered with the kind and changes nothing else (20_memory R46, 60_exceptions R165). -/
def Obligations.RejectionChangesNothing : Prop :=
  ∀ (i : Instr) (s : State) (k : RejectKind), check s.cfg i.op i.construction = some k →
    exec i s = .next { s with out := s.out ++ [.rejected k] }

/-- A request that passes the checks while the queue has room is entered with its request's frame, as the encoding tables write it,
and its descriptor list (43_sequencer R127). -/
def Obligations.AcceptedRequestIsEntered : Prop :=
  ∀ (i : Instr) (s : State), check s.cfg i.op i.construction = none → s.queueFull = false →
    exec i s = .next (entered s (acceptedRecord s.cfg i))

/-- A request that passes the checks while the bounded queue is full is neither rejected nor dropped: its producer is held, and
once there is room and its turn comes, its Enqueue is taken (43_sequencer R127, R148). That held producers are kept in a list is
the model's choice (log 10). -/
def Obligations.FullQueueHoldsProducer : Prop :=
  (∀ (i : Instr) (s : State), check s.cfg i.op i.construction = none → s.queueFull = true →
    exec i s = .next { s with blocked := s.blocked ++ [i] }) ∧
  (∀ (s : State) (k : Nat) (rest : List Event), s.sched = .resume k :: rest → s.queueFull = true →
    step s = .next { s with sched := rest }) ∧
  (∀ (s : State) (k : Nat) (i : Instr) (rest : List Event), s.sched = .resume k :: rest → s.blocked[k]? = some i →
    s.queueFull = false →
    step s = exec i { s with sched := rest, blocked := s.blocked.eraseIdx k })

/-- ReadBit and ReadRegister are entered with their two-phase frames over a zero payload (41_framing R99, R100). -/
def Obligations.ReadsAreEntered : Prop :=
  ∀ (s : State) (addr : Half) (count : Nat), RefLimits s.cfg → 1 ≤ count → s.queueFull = false →
    (count ≤ 255 →
      exec (.readBit (.read addr count)) s = .next (entered s
        { op := .readBit, addr := addr, count := count, values := []
          tx := encodeF2 s.cfg s.cfg.opcodes.readBit count addr (zeros (ceilDiv count 8))
          segs := segs2 s.cfg (ceilDiv count 8)
          rx := none, deadline := none, state := .pending, result := .nothing })) ∧
    (count ≤ 128 →
      exec (.readRegister (.read addr count)) s = .next (entered s
        { op := .readRegister, addr := addr, count := count, values := []
          tx := encodeF2 s.cfg s.cfg.opcodes.readRegister count addr (zeros (2 * count))
          segs := segs2 s.cfg (2 * count)
          rx := none, deadline := none, state := .pending, result := .nothing }))

/-- WriteBit is entered with its one-phase frame, in the layout's field places (41_framing R101; 30_encoding R68, R69). -/
def Obligations.WriteBitIsEntered : Prop :=
  ∀ (s : State) (addr value : Half), value.toNat ≤ 1 → s.queueFull = false →
    (s.cfg.onePhaseLayout = .addrByte → addr.toNat ≤ 0xFF →
      exec (.writeBit (.writeOne addr value)) s = .next (entered s
        { op := .writeBit, addr := addr, count := 1, values := [value]
          tx := encodeF1 s.cfg s.cfg.opcodes.writeBit (lo8 addr) value
          segs := segs1 s.cfg
          rx := none, deadline := none, state := .pending, result := .nothing })) ∧
    (s.cfg.onePhaseLayout = .addrWord →
      exec (.writeBit (.writeOne addr value)) s = .next (entered s
        { op := .writeBit, addr := addr, count := 1, values := [value]
          tx := encodeF1 s.cfg s.cfg.opcodes.writeBit (lo8 value) addr
          segs := segs1 s.cfg
          rx := none, deadline := none, state := .pending, result := .nothing }))

/-- WriteRegister is entered with its values low byte first; WriteOne is the one-value WriteMany (41_framing R102, 30_encoding R63). -/
def Obligations.WriteRegisterIsEntered : Prop :=
  ∀ (s : State) (addr : Half), RefLimits s.cfg → s.queueFull = false →
    (∀ values : List Half, 1 ≤ values.length → values.length ≤ 126 →
      exec (.writeRegister (.writeMany addr values)) s = .next (entered s
        { op := .writeRegister, addr := addr, count := values.length, values := values
          tx := encodeF2 s.cfg s.cfg.opcodes.writeRegister values.length addr (values.flatMap le16bytes)
          segs := segs2 s.cfg (2 * values.length)
          rx := none, deadline := none, state := .pending, result := .nothing })) ∧
    (∀ value : Half,
      exec (.writeRegister (.writeOne addr value)) s = exec (.writeRegister (.writeMany addr [value])) s)

/-- WriteBits is entered with bit i at bit i%8 of payload byte i/8 and the pad bits 0; WriteOne is the one-bit WriteMany
(41_framing R103, 30_encoding R63, R71). -/
def Obligations.WriteBitsIsEntered : Prop :=
  ∀ (s : State) (addr : Half), RefLimits s.cfg → s.queueFull = false →
    (∀ values : List Half, 1 ≤ values.length → values.length ≤ 255 → (∀ v ∈ values, v.toNat ≤ 1) →
      ∃ payload : List Byte, payload.length = ceilDiv values.length 8 ∧
        (∀ k, k < 8 * payload.length →
          bitAt payload k = (if h : k < values.length then decide (values[k] = 1#16) else false)) ∧
        exec (.writeBits (.writeMany addr values)) s = .next (entered s
          { op := .writeBits, addr := addr, count := values.length, values := values
            tx := encodeF2 s.cfg s.cfg.opcodes.writeBits values.length addr payload
            segs := segs2 s.cfg (ceilDiv values.length 8)
            rx := none, deadline := none, state := .pending, result := .nothing })) ∧
    (∀ value : Half, value.toNat ≤ 1 →
      exec (.writeBits (.writeOne addr value)) s = exec (.writeBits (.writeMany addr [value])) s)

/-- Idle is entered with the keep-alive frame, the same under both layouts (41_framing R107). That its record holds address 0,
count 0 and no values is the model's choice (log 15). -/
def Obligations.IdleIsEntered : Prop :=
  ∀ s : State, s.queueFull = false →
    exec (.idle .noOperands) s = .next (entered s
      { op := .idle, addr := 0#16, count := 0, values := []
        tx := encodeF1 s.cfg s.cfg.opcodes.idle 0#8 0#16
        segs := segs1 s.cfg
        rx := none, deadline := none, state := .pending, result := .nothing })

/-- WriteCharacter, WriteString, ReadString and Invalid: any construction is rejected RequestUnsupported, whatever its operands; no
message, no tag, no transfer; and Invalid has no wire value (41_framing R104, R105, R106, R108). -/
def Obligations.UnsupportedOpcodesRejected : Prop :=
  (∀ (c : Construction) (s : State),
    exec (.writeCharacter c) s = .next { s with out := s.out ++ [.rejected .requestUnsupported] } ∧
    exec (.writeString c) s = .next { s with out := s.out ++ [.rejected .requestUnsupported] } ∧
    exec (.readString c) s = .next { s with out := s.out ++ [.rejected .requestUnsupported] } ∧
    exec (.invalid c) s = .next { s with out := s.out ++ [.rejected .requestUnsupported] }) ∧
  (∀ o : Opcodes, opcodeByte o .invalid = none) ∧
  ∀ (cfg : Config) (c : Construction), encode cfg (.invalid c) = []

/-- What a request leaves unchanged, for every instruction and every form: all but the record of the next tag, the queue's tail, the
tag counter, the held producers and the answers. Every byte of every other message's buffers reads as before. -/
def Obligations.RequestFrame : Prop :=
  ∀ (i : Instr) (s s' : State), exec i s = .next s' →
    s'.cfg = s.cfg ∧ s'.seq = s.seq ∧ s'.cur = s.cur ∧ s'.speed = s.speed ∧ s'.stop = s.stop ∧
    s'.busBusy = s.busBusy ∧ s'.orphan = s.orphan ∧ s'.log = s.log ∧ s'.bus = s.bus ∧
    s'.signals = s.signals ∧ s'.now = s.now ∧ s'.stopAt = s.stopAt ∧ s'.sched = s.sched ∧
    (s'.q = s.q ∧ s'.nextTag = s.nextTag ∧ s'.msgs = s.msgs ∨
      s'.q = s.q ++ [s.nextTag] ∧ s'.nextTag = s.nextTag + 1 ∧ s'.blocked = s.blocked) ∧
    (∀ t b off, t ≠ s.nextTag → byteAt s'.msgs t b off = byteAt s.msgs t b off) ∧
    (∀ t, t ≠ s.nextTag → memGet s'.msgs t = memGet s.msgs t) ∧
    s.out <+: s'.out ∧ s.blocked <+: s'.blocked

/-! Frames and segments. -/

/-- The frame length of every accepted request, its agreement with the class table (41_framing R110; 30_encoding R61), and its
trailer: the checksum, from `CRC_INIT`, of the first 4 bytes for the one-phase opcodes and under HeaderOnly, of header and payload
under HeaderPlusPayload, low byte first (30_encoding R72, 40_checksum R90, R94, 41_framing R97, R98). -/
def Obligations.FrameLengths : Prop :=
  ∀ (cfg : Config) (i : Instr), check cfg i.op i.construction = none →
    (encode cfg i).length = flen i.op (reqCount i.construction) ∧
    ((encode cfg i).length ≤ 6 ↔ isTwoPhase i.op = false) ∧
    (RefLimits cfg → 6 ≤ (encode cfg i).length ∧ (encode cfg i).length ≤ 262) ∧
    (encode cfg i).drop ((encode cfg i).length - 2) =
      le16bytes (checksum cfg.crcTable
        ((encode cfg i).take
          (if isTwoPhase i.op = true ∧ cfg.crcScope = .headerPlusPayload then 4 + plen i.op (reqCount i.construction)
           else 4))
        cfg.crcInit)

/-- The payload chunks in closed form, their last length, their tiling, and the descriptor counts (42_segmentation R118, R120). -/
def Obligations.PayloadChunksClosedForm : Prop :=
  ∀ (cfg : Config) (p : Nat), 0 < cfg.chunkLimit →
    payloadChunks cfg.chunkLimit p p 0 =
      (List.range (ceilDiv p cfg.chunkLimit)).map (fun j =>
        ⟨0, 4 + cfg.chunkLimit * j, 4 + cfg.chunkLimit * j,
          if j + 1 < ceilDiv p cfg.chunkLimit then cfg.chunkLimit
          else p - cfg.chunkLimit * (ceilDiv p cfg.chunkLimit - 1)⟩) ∧
    (0 < p → 1 ≤ p - cfg.chunkLimit * (ceilDiv p cfg.chunkLimit - 1) ∧
      p - cfg.chunkLimit * (ceilDiv p cfg.chunkLimit - 1) ≤ cfg.chunkLimit) ∧
    tiles 4 (payloadChunks cfg.chunkLimit p p 0) (4 + p) ∧
    (segs2 cfg p).length = ndesc cfg p ∧ (segs1 cfg).length = 2

/-- The invariants of every accepted list (42_segmentation R122), and that only segment 0 carries a delay. -/
def Obligations.SegmentListInvariants : Prop :=
  ∀ (cfg : Config) (i : Instr), 6 ≤ cfg.chunkLimit → 2 ≤ cfg.maxDesc →
    check cfg i.op i.construction = none →
    (acceptedRecord cfg i).segs.length ≤ cfg.maxDesc ∧
    (acceptedRecord cfg i).segs.head? = some ⟨cfg.settleDelayUs, 0, 0, 0⟩ ∧
    (∀ d ∈ (acceptedRecord cfg i).segs, d.length ≤ cfg.chunkLimit) ∧
    ((payloadChunks cfg.chunkLimit (plen i.op (reqCount i.construction)) (plen i.op (reqCount i.construction)) 0).map
      Descriptor.length).sum = plen i.op (reqCount i.construction) ∧
    tiles 0 (acceptedRecord cfg i).segs.tail (acceptedRecord cfg i).tx.length ∧
    (∀ d ∈ (acceptedRecord cfg i).segs, d.rxOffset = d.txOffset) ∧
    ∀ d ∈ (acceptedRecord cfg i).segs.tail, d.delayMicros = 0

/-- A submission of an accepted request sends exactly the frame's bytes in order, and puts what it receives, byte for byte, at the
same offsets (20_memory R41, 43_sequencer R128). -/
def Obligations.WireCarriesTheFrame : Prop :=
  ∀ (cfg : Config) (i : Instr), 0 < cfg.chunkLimit → check cfg i.op i.construction = none →
    wireBytes (acceptedRecord cfg i).segs (acceptedRecord cfg i).tx = (acceptedRecord cfg i).tx ∧
    ∀ stream rx : List Byte, stream.length = (acceptedRecord cfg i).tx.length →
      rx.length = (acceptedRecord cfg i).tx.length →
      placeReceived (acceptedRecord cfg i).segs stream rx = stream

/-! Replies. -/

/-- The verdict on a reply of the frame's length, spelt out: which replies complete, that every other is a ProtocolError, and that a
result is given on Completed alone (44_validation R151 to R155). The checksum is computed over the received bytes of the scope,
from `CRC_INIT`, and compared with the received trailer (R153). -/
def Obligations.ReplyVerdict : Prop :=
  defaultConfig.crcScope = .headerPlusPayload ∧
  ∀ (cfg : Config) (op : FunctionCode) (addr : Half) (count : Nat) (rx : List Byte), rx.length = flen op count →
    (isTwoPhase op = true →
      (validateState cfg op addr count rx = .completed ↔
        checksum cfg.crcTable
            (rx.take (if cfg.crcScope = .headerPlusPayload then 4 + plen op count else 4)) cfg.crcInit =
          le16 (byteOf rx (4 + plen op count)) (byteOf rx (5 + plen op count)) ∧
        opcodeByte cfg.opcodes op = some (byteOf rx 0) ∧
        (isRead op = true → le16 (byteOf rx 2) (byteOf rx 3) = addr))) ∧
    (isTwoPhase op = false →
      (validateState cfg op addr count rx = .completed ↔ opcodeByte cfg.opcodes op = some (byteOf rx 0))) ∧
    (validateState cfg op addr count rx ≠ .completed → validateState cfg op addr count rx = .protocolError) ∧
    (validate cfg op addr count rx).1 = validateState cfg op addr count rx ∧
    (validate cfg op addr count rx).2 =
      (if validateState cfg op addr count rx = .completed then decodeResult op count rx else .nothing) ∧
    (isRead op = false → (validate cfg op addr count rx).2 = .nothing)

/-- A reply that echoes the request passes; an all-zero two-phase reply passes the checksum and fails the opcode, under the default
table, seed and opcode values (44_validation R163). -/
def Obligations.EchoPassesZerosFail : Prop :=
  (∀ (cfg : Config) (i : Instr), check cfg i.op i.construction = none →
    validateState cfg i.op (reqAddr i.construction) (reqCount i.construction) (encode cfg i) = .completed) ∧
  ∀ (cfg : Config) (op : FunctionCode) (addr : Half) (count : Nat),
    cfg.crcTable = defaultCrcTable → cfg.crcInit = 0#16 → cfg.opcodes = defaultOpcodes → isTwoPhase op = true →
    crcOk cfg (plen op count) (zeros (flen op count)) = true ∧
    validateState cfg op addr count (zeros (flen op count)) = .protocolError

/-- Under HeaderOnly the payload of a two-phase reply does not matter: two replies of the frame's length that agree on the header
and the trailer get the same verdict (44_validation R162). -/
def Obligations.HeaderOnlyIgnoresPayload : Prop :=
  ∀ (cfg : Config) (op : FunctionCode) (addr : Half) (count : Nat) (rx rx' : List Byte),
    cfg.crcScope = .headerOnly → isTwoPhase op = true →
    rx.length = flen op count → rx'.length = flen op count →
    (∀ k, k < 4 → byteOf rx k = byteOf rx' k) →
    (∀ k, 4 + plen op count ≤ k → byteOf rx k = byteOf rx' k) →
    validateState cfg op addr count rx = validateState cfg op addr count rx'

/-- The results read back what a node packed: registers low byte first, bits LSB first with any pad bits (44_validation R156,
R157). -/
def Obligations.ResultsReadBackPayload : Prop :=
  (∀ (header trailer : List Byte) (values : List Half), header.length = 4 →
    decodeResult .readRegister values.length (header ++ packRegs values ++ trailer) = .registers values) ∧
  (∀ (header trailer payload : List Byte) (values : List Bool), header.length = 4 →
    payload.length = ceilDiv values.length 8 →
    (∀ k (h : k < values.length), bitAt payload k = values[k]) →
    decodeResult .readBit values.length (header ++ payload ++ trailer) = .bits values)

/-! Steps of the machine. -/

/-- A step at which a producer presents a request runs exactly that request, on the state with the event taken off the schedule;
bytes are presented as what they decode to, and bytes that decode to nothing are refused by name. That requests come off a
schedule, and that a frame's bytes may stand for one, is the model's choice (log 1, 2, 3, 19). The last clause: the very next step
after a table word is placed runs the word's instruction. -/
def Obligations.StepRunsPresentedRequest : Prop :=
  ∀ (s : State) (rest : List Event),
    (∀ i, s.sched = .present (.term i) :: rest → step s = exec i { s with sched := rest }) ∧
    (∀ bytes i, s.sched = .present (.frame bytes) :: rest → decodeWhole s.cfg bytes = .ok i →
      step s = exec i { s with sched := rest }) ∧
    (∀ bytes e, s.sched = .present (.frame bytes) :: rest → decodeWhole s.cfg bytes = .error e →
      step s = .refused (.badFrame e)) ∧
    (∀ nbits w i, decodeWhole s.cfg (tableImage s.cfg nbits w) = .ok i →
      step (s.withFetchWord nbits w) = exec i s)

/-- Dispatch of the head of the queue: the deadline armed first, then submission at the present SPEED, or WaitBus while the bus is
busy (43_sequencer R130, R132). The deadline's number is R138's in the timed refinement; that the untimed model holds it too, where
10_state R30 gives a marker only, is the model's choice (log 12). -/
def Obligations.DispatchServesHead : Prop :=
  ∀ (s : State) (rest : List Event) (t : Nat) (qs : List Nat) (m : Message),
    s.sched = .sequencer :: rest → s.seq = .idle → s.stop = false → s.q = t :: qs → memGet s.msgs t = some m →
    (s.busBusy = true →
      step s = .next { s with
        sched := rest, q := qs, cur := some t, seq := .waitBus
        msgs := memPut s.msgs t { m with deadline := some (s.now + s.cfg.timeoutUs) } }) ∧
    (s.busBusy = false →
      step s = .next { s with
        sched := rest, q := qs, cur := some t, seq := .inFlight
        msgs := memPut s.msgs t { m with deadline := some (s.now + s.cfg.timeoutUs) }
        busBusy := true
        bus := some ⟨m.segs, m.tx, s.speed⟩
        out := s.out ++ [.submitted t ⟨m.segs, m.tx, s.speed⟩] })

/-- In WaitBus the sequencer holds while the bus is busy and submits the current message once it is not (43_sequencer R131). -/
def Obligations.WaitBusHoldsThenSubmits : Prop :=
  ∀ (s : State) (rest : List Event) (t : Nat) (m : Message),
    s.sched = .sequencer :: rest → s.seq = .waitBus → s.cur = some t → memGet s.msgs t = some m →
    (s.busBusy = true → step s = .next { s with sched := rest }) ∧
    (s.busBusy = false →
      step s = .next { s with
        sched := rest, seq := .inFlight, busBusy := true
        bus := some ⟨m.segs, m.tx, s.speed⟩
        out := s.out ++ [.submitted t ⟨m.segs, m.tx, s.speed⟩] })

/-- The bus answers `Fail` for the current message (43_sequencer R133, R135). -/
def Obligations.FailAnswerEndsMessage : Prop :=
  ∀ (s : State) (rest : List Event) (t : Nat) (m : Message) (sub : Submission),
    s.sched = .bus .fail :: rest → s.busBusy = true → s.bus = some sub → s.orphan = none →
    s.seq = .inFlight → s.cur = some t → memGet s.msgs t = some m →
    (s.cfg.timed && deadlineReached s m) = false →
    step s = .next { s with
      sched := rest, busBusy := false, bus := none, cur := none
      seq := if s.stop then .stopped else .idle
      msgs := memPut s.msgs t { m with state := .transportError }
      log := s.log ++ [(t, .transportError)]
      signals := s.signals ++ [t]
      out := s.out ++ [.completion t .transportError] }

/-- The bus answers `Ok(bytes)` for the current message: the bytes are its `rx`, the verdict its state, the decode its result, in
one step (43_sequencer R134, R135; 20_memory R45, R55). -/
def Obligations.OkAnswerEndsMessage : Prop :=
  ∀ (s : State) (rest : List Event) (t : Nat) (m : Message) (sub : Submission) (bytes : List Byte)
    (c : Completion) (r : ReadResult),
    s.sched = .bus (.ok bytes) :: rest → s.busBusy = true → s.bus = some sub → bytes.length = sub.tx.length →
    s.orphan = none → s.seq = .inFlight → s.cur = some t → memGet s.msgs t = some m →
    (s.cfg.timed && deadlineReached s m) = false →
    validate s.cfg m.op m.addr m.count bytes = (c, r) →
    step s = .next { s with
      sched := rest, busBusy := false, bus := none, cur := none
      seq := if s.stop then .stopped else .idle
      msgs := memPut s.msgs t { m with rx := some bytes, result := r, state := c }
      log := s.log ++ [(t, c)]
      signals := s.signals ++ [t]
      out := s.out ++ [.completion t c] }

/-- The deadline of the current message expires: TimedOut; in flight, the transfer stays on the bus as the orphan (43_sequencer
R137). In the timed refinement the step needs `now ≥ deadline`, and before that it is not taken (R138). -/
def Obligations.ExpiryEndsMessage : Prop :=
  ∀ (s : State) (rest : List Event) (t : Nat) (m : Message),
    s.sched = .expire :: rest → serving s → s.cur = some t → memGet s.msgs t = some m →
    ((s.cfg.timed = false ∨ ∃ d, m.deadline = some d ∧ d ≤ s.now) →
      step s = .next { s with
        sched := rest, cur := none
        orphan := if s.seq = .inFlight then some t else s.orphan
        seq := if s.stop then .stopped else .idle
        msgs := memPut s.msgs t { m with state := .timedOut }
        log := s.log ++ [(t, .timedOut)]
        signals := s.signals ++ [t]
        out := s.out ++ [.completion t .timedOut] }) ∧
    (s.cfg.timed = true → (∀ d, m.deadline = some d → s.now < d) → step s = .next { s with sched := rest })

/-- Any answer to an orphaned transfer is discarded: no message, `rx`, state or log entry is written (43_sequencer R139). -/
def Obligations.OrphanAnswerDiscarded : Prop :=
  ∀ (s : State) (rest : List Event) (t : Nat) (sub : Submission) (a : BusAnswer),
    s.sched = .bus a :: rest → s.busBusy = true → s.bus = some sub → s.orphan = some t →
    (∀ bytes, a = .ok bytes → bytes.length = sub.tx.length) →
    step s = .next { s with sched := rest, busBusy := false, bus := none, orphan := none }

/-- In the timed refinement an answer that comes at or after the deadline lets the expiry go first and is then the orphan's answer:
two steps, TimedOut, and the bus free (43_sequencer R138). -/
def Obligations.LateAnswerLosesToDeadline : Prop :=
  ∀ (s : State) (rest : List Event) (t d : Nat) (m : Message) (sub : Submission) (a : BusAnswer),
    s.cfg.timed = true → s.sched = .bus a :: rest → s.busBusy = true → s.bus = some sub → s.orphan = none →
    (∀ bytes, a = .ok bytes → bytes.length = sub.tx.length) →
    s.seq = .inFlight → s.cur = some t → memGet s.msgs t = some m → m.deadline = some d → d ≤ s.now →
    Host.Core.run Sys2Proof.core 2 s = .next { s with
      sched := rest, busBusy := false, bus := none, cur := none
      seq := if s.stop then .stopped else .idle
      msgs := memPut s.msgs t { m with state := .timedOut }
      log := s.log ++ [(t, .timedOut)]
      signals := s.signals ++ [t]
      out := s.out ++ [.completion t .timedOut] }

/-- Every run of the timed refinement is a run of the untimed model: same block, same ports, under some schedule of as many events
(43_sequencer R138). -/
def Obligations.TimedRunIsUntimedRun : Prop :=
  ∀ (n : Nat) (s s' : State), s.cfg.timed = true → Host.Core.run Sys2Proof.core n s = .next s' →
    ∃ (events : List Event) (u : State), events.length = n ∧
      Host.Core.run Sys2Proof.core n { untimed s with sched := events } = .next u ∧ eraseTime u = eraseTime s'

/-- With no message, no stop and nothing scheduled the machine waits; in the timed refinement a Shutdown standing in Idle keeps the
clock within the poll interval of it (43_sequencer R140). What a tick does: in the timed refinement it moves the clock by its number
of microseconds, unless that would pass the interval, and changes nothing else; in the untimed model it changes nothing (R138).
That the clock moves by ticks, that a tick past the interval is not taken, and that nothing else holds the clock back is the
model's choice (log 9, 12, 29). -/
def Obligations.EmptyQueueWaits : Prop :=
  (∀ s : State, s.sched = [] → s.seq = .idle → s.stop = false → s.q = [] → s.blocked = [] → step s = .next s) ∧
  (∀ (s : State) (rest : List Event), s.sched = .sequencer :: rest → s.seq = .idle → s.stop = false → s.q = [] →
    step s = .next { s with sched := rest }) ∧
  (∀ (s s' : State) (rest : List Event) (micros : Nat), s.sched = .tick micros :: rest → s.cfg.timed = true →
    s.seq = .idle → s.stop = true → s.now ≤ s.stopAt + s.cfg.pollIntervalUs → step s = .next s' →
    s'.now ≤ s.stopAt + s.cfg.pollIntervalUs) ∧
  ∀ (s : State) (rest : List Event) (micros : Nat), s.sched = .tick micros :: rest →
    (s.cfg.timed = true →
      (s.seq = .idle → s.stop = true → s.now + micros ≤ s.stopAt + s.cfg.pollIntervalUs) →
      step s = .next { s with sched := rest, now := s.now + micros }) ∧
    (s.cfg.timed = true → s.seq = .idle → s.stop = true → s.stopAt + s.cfg.pollIntervalUs < s.now + micros →
      step s = .next { s with sched := rest }) ∧
    (s.cfg.timed = false → step s = .next { s with sched := rest })

/-- SetSpeed: a positive rate is SPEED from then on, 0 is refused and SPEED unchanged, in every state (43_sequencer R145). -/
def Obligations.SetSpeedWritesPositive : Prop :=
  ∀ (s : State) (rest : List Event) (hz : Nat), s.sched = .setSpeed hz :: rest →
    (0 < hz → step s = .next { s with sched := rest, speed := hz }) ∧
    (hz = 0 → step s = .next { s with sched := rest, out := s.out ++ [.speedRefused] })

/-- The rate of a submission is SPEED at that step, and an outstanding transfer is never altered: it stays as submitted until the
bus answers (43_sequencer R144). -/
def Obligations.RateSampledAtSubmission : Prop :=
  ∀ s s' : State, Inv s → step s = .next s' →
    (∀ t sub, s'.out = s.out ++ [.submitted t sub] → sub.hz = s.speed ∧ s'.bus = some sub) ∧
    (∀ sub, s.bus = some sub → s'.bus = some sub ∨ s'.bus = none) ∧
    (∀ sub, s.bus = none → s'.bus = some sub → sub.hz = s.speed ∧ ∃ t, s'.out = s.out ++ [.submitted t sub])

/-- Shutdown sets `stop` and nothing else the block holds, and in Idle the next sequencer step is Stopped with the queue as it was
(43_sequencer R146, 70_reset R200). That the time of the Shutdown is recorded is the timed refinement's (log 12). -/
def Obligations.ShutdownStopsIdleSequencer : Prop :=
  (∀ (s : State) (rest : List Event), s.sched = .shutdown :: rest →
    step s = .next { s with sched := rest, stop := true, stopAt := if s.stop then s.stopAt else s.now }) ∧
  (∀ (s : State) (rest : List Event), s.sched = .sequencer :: rest → s.seq = .idle → s.stop = true →
    step s = .next { s with sched := rest, seq := .stopped })

/-- While `stop` is set, no step but Start takes a message off the queue or makes another message current (43_sequencer R146). -/
def Obligations.NoDispatchWhileStopped : Prop :=
  ∀ s s' : State, s.stop = true → (∀ opens rest, s.sched ≠ .start opens :: rest) → step s = .next s' →
    s'.stop = true ∧ s.q <+: s'.q ∧ (s'.cur = s.cur ∨ s'.cur = none)

/-- Start: from Stopped with the device open it clears `stop` and goes Idle, with the device closed it answers DeviceUnavailable and
changes nothing, and elsewhere it has no effect (43_sequencer R147, 60_exceptions R169). -/
def Obligations.StartOpensOrFails : Prop :=
  ∀ (s : State) (rest : List Event) (opens : Bool), s.sched = .start opens :: rest →
    (s.seq = .stopped → opens = true →
      step s = .next { s with sched := rest, stop := false, seq := .idle }) ∧
    (s.seq = .stopped → opens = false →
      step s = .next { s with sched := rest, out := s.out ++ [.deviceUnavailable] }) ∧
    (s.seq ≠ .stopped → step s = .next { s with sched := rest })

/-! Host reads. -/

/-- Early reads fault: `rx` and `result` while Pending, and `rx` of a TimedOut or TransportError message (70_reset R193). -/
def Obligations.EarlyReadsFault : Prop :=
  ∀ (s : State) (rest : List Event) (t : Nat) (m : Message), Inv s → memGet s.msgs t = some m →
    (m.state = .pending →
      (s.sched = .readRx t :: rest → step s = .fault (.readWhilePending t)) ∧
      (s.sched = .readResult t :: rest → step s = .fault (.readWhilePending t))) ∧
    (m.state = .timedOut ∨ m.state = .transportError →
      s.sched = .readRx t :: rest → step s = .fault (.rxNoValue t))

/-- Reads of an ended message answer what the sequencer wrote and change nothing of the block: the result on every terminal state,
and `rx`, as long as the frame, on Completed and ProtocolError (10_state R28, R39; 20_memory R47). -/
def Obligations.EndedMessageReads : Prop :=
  ∀ (s : State) (rest : List Event) (t : Nat) (m : Message), Inv s → memGet s.msgs t = some m → m.state ≠ .pending →
    (s.sched = .readResult t :: rest →
      step s = .next { s with sched := rest, out := s.out ++ [.messageResult t m.result] }) ∧
    (m.state = .completed ∨ m.state = .protocolError → s.sched = .readRx t :: rest →
      ∃ bytes, m.rx = some bytes ∧ bytes.length = m.tx.length ∧
        step s = .next { s with sched := rest, out := s.out ++ [.messageRx t bytes] })

/-- Reading a message's state clears its signal, and reading twice answers the same state (60_exceptions R171). R171 says that the
producer's reading clears the signal; that it is the read of the message's state which does is the model's deduction (log 17). -/
def Obligations.StateReadClearsSignal : Prop :=
  ∀ (s : State) (rest : List Event) (t : Nat) (m : Message), memGet s.msgs t = some m →
    s.sched = .readState t :: .readState t :: rest →
    ∃ s' : State, Host.Core.run Sys2Proof.core 2 s = .next s' ∧ s'.msgs = s.msgs ∧ t ∉ s'.signals ∧
      (∀ u, u ≠ t → (u ∈ s'.signals ↔ u ∈ s.signals)) ∧
      s'.out = s.out ++ [.messageState t m.state, .messageState t m.state]

/-- STATUS reads as the state elements, writes to it are ignored, and after reset it reads Stopped, 0, 0 (10_state R35). -/
def Obligations.StatusIsHardwired : Prop :=
  (∀ (s : State) (rest : List Event), s.sched = .readStatus :: rest →
    step s = .next { s with sched := rest, out := s.out ++ [.status ⟨seqCode s.seq, s.busBusy, s.q.length⟩] }) ∧
  (∀ (s : State) (rest : List Event) (value : Nat), s.sched = .writeStatus value :: rest →
    step s = .next { s with sched := rest }) ∧
  State.reset.status = ⟨0#2, false, 0⟩ ∧
  seqCode .stopped = 0#2 ∧ seqCode .idle = 1#2 ∧ seqCode .waitBus = 2#2 ∧ seqCode .inFlight = 3#2

/-! Reset. -/

/-- Every state element after reset, and that the configuration is no such element: it is fixed for the instance (10_state R38). -/
def Obligations.ResetValues : Prop :=
  State.reset.seq = .stopped ∧ State.reset.cur = none ∧ State.reset.q = [] ∧ State.reset.nextTag = 0 ∧
  State.reset.speed = State.reset.cfg.defaultSpeedHz ∧ State.reset.stop = false ∧ State.reset.busBusy = false ∧
  State.reset.orphan = none ∧ State.reset.msgs = [] ∧ State.reset.log = [] ∧
  ∀ s s' : State, step s = .next s' → s'.cfg = s.cfg

/-- The invariant holds at reset, and so do the submission and the request invariants. -/
def Obligations.ResetIsSafe : Prop :=
  Inv State.reset ∧ SubmitInv State.reset ∧ RequestInv State.reset

/-! Invariants. -/

/-- Every step of every agent keeps the invariant of the block: the canonical store, the buffers of ended messages, the queue and the
current message, the log, and the owner of the outstanding transfer (10_state R19, R28, R29; 43_sequencer R136, R141, R142). -/
def Obligations.EveryStepKeepsInv : Prop :=
  ∀ s s' : State, Inv s → step s = .next s' → Inv s'

/-- Submissions go to the bus in acceptance order and no message twice, whatever the agents do (20_memory R53 b, 43_sequencer R143). -/
def Obligations.SubmittedOnceInOrder : Prop :=
  ∀ s s' : State, Inv s → SubmitInv s → step s = .next s' → SubmitInv s'

/-- Every message keeps the frame and the list of a request that passed the checks (10_state R27, 41_framing R111). -/
def Obligations.MessagesKeepTheirFrames : Prop :=
  ∀ s s' : State, RequestInv s → step s = .next s' → RequestInv s'

/-- A message starts Pending, ends once and only while it is current; what acceptance wrote never changes, and an ended message does
not change at all (10_state R29; also 10_state R27, 43_sequencer R142). -/
def Obligations.MessageEndsOnceAsCurrent : Prop :=
  ∀ s s' : State, Inv s → step s = .next s' →
    (∀ t m, memGet s.msgs t = some m →
      ∃ m', memGet s'.msgs t = some m' ∧ SameRequest m m' ∧ (m.state ≠ .pending → m' = m) ∧
        (m'.state ≠ m.state → s.cur = some t)) ∧
    (∀ t m', memGet s.msgs t = none → memGet s'.msgs t = some m' → m'.state = .pending) ∧
    (s'.log = s.log ∨
      ∃ t c, s.cur = some t ∧ stateOf s t = some .pending ∧ stateOf s' t = some c ∧ c ≠ .pending ∧
        s'.log = s.log ++ [(t, c)])

/-- One message in flight, and one owner of the outstanding submission, in every state with the invariant (43_sequencer R136, which
the spec marks as its own inference). -/
def Obligations.OneMessageInFlight : Prop :=
  ∀ s : State, Inv s →
    (∀ t u m n, memGet s.msgs t = some m → memGet s.msgs u = some n →
      m.state = .pending → n.state = .pending → m.deadline.isSome = true → n.deadline.isSome = true →
      t = u ∧ s.cur = some t) ∧
    (s.busBusy = true →
      ((∃ t, s.cur = some t ∧ s.seq = .inFlight) ∧ s.orphan = none) ∨
      (¬ (∃ t, s.cur = some t ∧ s.seq = .inFlight) ∧ ∃ t, s.orphan = some t))

/-- FIFO: the tags of `log` increase, and each tag dispatched is the smallest in `q` (43_sequencer R141). -/
def Obligations.FifoOrder : Prop :=
  ∀ s : State, Inv s →
    (s.log.map Prod.fst).Pairwise (· < ·) ∧
    ∀ s' t, step s = .next s' → s.cur ≠ some t → s'.cur = some t → t ∈ s.q ∧ ∀ u ∈ s.q, t ≤ u

/-- No step changes the configuration (70_reset R187). -/
def Obligations.ConfigNeverChanges : Prop :=
  ∀ s s' : State, step s = .next s' → s'.cfg = s.cfg

/-- Tags: a step gives out no tag, or exactly `nextTag` to an accepted request, which it then increments; the answers and the log only
grow (10_state R23, R33). -/
def Obligations.TagsGivenInOrder : Prop :=
  State.reset.nextTag = 0 ∧
  ∀ s s' : State, step s = .next s' →
    s.out <+: s'.out ∧ s.log <+: s'.log ∧
    ((s'.nextTag = s.nextTag ∧ ∀ t, Output.accepted t ∉ s'.out.drop s.out.length) ∨
      (s'.nextTag = s.nextTag + 1 ∧ s'.out = s.out ++ [.accepted s.nextTag] ∧ s'.q = s.q ++ [s.nextTag]))

/-- The block never stops: in a state with the invariant, every step that is not a host read of a message or the decoding of presented
bytes has a next state, whatever the bus answers (60_exceptions R172). -/
def Obligations.BlockNeverStops : Prop :=
  ∀ s : State, Inv s → (∀ e rest, s.sched = e :: rest → isBlockEvent e = true) → ∃ s', step s = .next s'

/-- Progress (43_sequencer R149, which the spec marks as its own inference). On every endless run with a weakly fair timer whose
deadlines come, every dispatched message ends; if moreover `stop` stays 0, the sequencer is weakly fair and the block is started at
some time (R150), every accepted message ends. And a stuck bus does not hold the queue (70_reset R195): in the untimed model, from
Idle, with the bus never answering, one sequencer step and one expiry for each queued message end all of them TimedOut, in order.
How an endless run is told, and the premises on the clock and on Start, are the model's (log 25). -/
def Obligations.QueueDrainsByTimeouts : Prop :=
  (∀ (supply : Nat → Event) (run : Nat → State), EndlessRun supply run → Inv (run 0) → DeadlinesCome run →
    FairTimer supply run →
    ∀ n t m, memGet (run n).msgs t = some m → m.deadline.isSome = true →
      ∃ k c, n ≤ k ∧ stateOf (run k) t = some c ∧ c ≠ .pending) ∧
  (∀ (supply : Nat → Event) (run : Nat → State), EndlessRun supply run → Inv (run 0) → DeadlinesCome run →
    FairTimer supply run → FairSequencer supply run → (∀ n, (run n).stop = false) →
    (∃ n, (run n).seq ≠ SeqState.stopped) →
    ∀ n t m, memGet (run n).msgs t = some m →
      ∃ k c, n ≤ k ∧ stateOf (run k) t = some c ∧ c ≠ .pending) ∧
  ∀ s : State, Inv s → s.cfg.timed = false → s.stop = false → s.seq = .idle →
    s.sched = (List.replicate s.q.length [Event.sequencer, Event.expire]).flatten →
    ∃ s' : State, Host.Core.run Sys2Proof.core (2 * s.q.length) s = .next s' ∧ s'.q = [] ∧ s'.seq = SeqState.idle ∧ s'.sched = [] ∧
      s'.log = s.log ++ s.q.map (fun t => (t, Completion.timedOut)) ∧
      ∀ t ∈ s.q, stateOf s' t = some .timedOut

/-! Host side and several instances. -/

/-- Attach: Start, the version read, then SetSpeed on Completed and Shutdown on any other end (70_reset R190). A Start that finds the
device closed fails it, and one that opens goes on, whatever the block answered before: an earlier failed Start may be tried again
(60_exceptions R169). The version read from reset runs at SPEED's reset value (R191). `boardSpeed` is any function: the decode is
out of scope. The automaton, that a running block is attached to as it is, and that attach succeeds once SetSpeed is issued, is the
model's choice (log 24, 30). -/
def Obligations.AttachSequence : Prop :=
  (∀ (boardSpeed : List Half → Nat) (opens : Bool) (s : State),
    attachNext boardSpeed opens .begin s = (.started s.out.length, some (.start opens)) ∧
    (∃ s', step { s with sched := [.start opens] } = .next s' ∧
      attachNext boardSpeed opens (.started s.out.length) s' =
        if s.seq = .stopped ∧ opens = false then (.failed, none)
        else (.waiting s.nextTag, some (.present (.term (.readRegister (.read 1000 5)))))) ∧
    ∀ t m, memGet s.msgs t = some m →
      (m.state = .pending → attachNext boardSpeed opens (.waiting t) s = (.waiting t, none)) ∧
      (∀ values, m.state = .completed → m.result = .registers values →
        attachNext boardSpeed opens (.waiting t) s = (.attached, some (.setSpeed (boardSpeed values)))) ∧
      (m.state = .timedOut ∨ m.state = .transportError ∨ m.state = .protocolError →
        attachNext boardSpeed opens (.waiting t) s = (.failed, some .shutdown))) ∧
  ∃ (s' : State) (sub : Submission), Host.Core.run Sys2Proof.core 3
      { State.reset with sched := [.start true, .present (.term versionRead), .sequencer] } = .next s' ∧
    s'.bus = some sub ∧ sub.hz = State.reset.speed ∧ s'.cur = some 0

/-- A step of one instance leaves every other instance as it was (20_memory R54). -/
def Obligations.InstancesAreIndependent : Prop :=
  ∀ (k : Fin 3) (sys sys' : System), systemStep k sys = .next sys' →
    (∀ j, j ≠ k → sys'.blockOf j = sys.blockOf j) ∧
    sys'.map Node.index = sys.map Node.index ∧ sys'.map Node.device = sys.map Node.device ∧
    (∀ b, sys.blockOf k = some b → ∃ b', step b = .next b' ∧ sys'.blockOf k = some b')

/-- Two instances on one bus device have no meaning: the system takes no step (70_reset R197). -/
def Obligations.SharedDeviceRefused : Prop :=
  ∀ (k : Fin 3) (sys : System), ¬ (sys.map Node.device).Nodup → systemStep k sys = .refused .sharedDevice
end

