-- ==== Sys2Proof/Laws/Bytes.lean ====
section
/-! SUPPORT. The small laws of the byte notation, of the packed payloads, and of the request checks. -/

namespace Sys2Proof.Machine

@[simp] theorem le16_lo8_hi8 (v : Half) : le16 (lo8 v) (hi8 v) = v := by
  apply BitVec.eq_of_toNat_eq
  have hlo : (lo8 v).toNat = v.toNat % 256 := by simp [lo8]
  have hhi : (hi8 v).toNat = v.toNat / 256 := by
    have := v.isLt
    simp [hi8, Nat.shiftRight_eq_div_pow]
    omega
  have := v.isLt
  simp [le16, hlo, hhi]
  omega

@[simp] theorem lo8_le16 (a b : Byte) : lo8 (le16 a b) = a := by
  apply BitVec.eq_of_toNat_eq
  have := a.isLt; have := b.isLt
  simp [lo8, le16]
  omega

@[simp] theorem hi8_le16 (a b : Byte) : hi8 (le16 a b) = b := by
  apply BitVec.eq_of_toNat_eq
  have := a.isLt; have := b.isLt
  simp [hi8, le16, Nat.shiftRight_eq_div_pow]
  omega

@[simp] theorem le16bytes_length (v : Half) : (le16bytes v).length = 2 := rfl

@[simp] theorem zeros_length (n : Nat) : (zeros n).length = n := List.length_replicate

theorem packRegs_length (values : List Half) : (packRegs values).length = 2 * values.length := by
  induction values with
  | nil => rfl
  | cons v vs ih => simp only [packRegs, List.flatMap_cons, List.length_append, le16bytes_length,
      List.length_cons] at ih ⊢; omega

@[simp] theorem packBits_length (n : Nat) (values : List Half) : (packBits n values).length = n := by
  induction n generalizing values with
  | zero => rfl
  | succ n ih => simp [packBits, ih]

@[simp] theorem orBits_length (i : Nat) (values : List Half) (pay : List Byte) :
    (orBits i values pay).length = pay.length := by
  induction values generalizing i pay with
  | nil => rfl
  | cons v vs ih => simp [orBits, ih]

@[simp] theorem withTrailer_length (cfg : Config) (covered : List Byte) :
    (withTrailer cfg covered).length = covered.length + 2 := by
  simp [withTrailer]

/-- A request passes exactly when none of the seven checks of 42_segmentation R113 fails. -/
theorem check_none_iff {cfg : Config} {op : FunctionCode} {c : Construction} :
    check cfg op c = none ↔
      admits op c = true ∧ (op = .idle ∨ reqCount c ≠ 0) ∧
      (isBitWrite op = true → ∀ v ∈ reqValues c, v.toNat ≤ 1) ∧
      (op = .writeBit → cfg.onePhaseLayout = .addrByte → (reqAddr c).toNat ≤ 0xFF) ∧
      (op = .writeRegister → reqCount c ≤ cfg.maxWriteRegs) ∧
      (isTwoPhase op = true → reqCount c ≤ 255) ∧
      (isTwoPhase op = true → ndesc cfg (plen op (reqCount c)) ≤ cfg.maxDesc) := by
  have hany : (reqValues c).any (fun v => decide (1 < v.toNat)) = true ↔
      ¬ ∀ v ∈ reqValues c, v.toNat ≤ 1 := by simp
  unfold check
  repeat' split
  all_goals simp only [hany] at *
  all_goals simp_all
  all_goals grind

end Sys2Proof.Machine
end

