-- ==== Sys2Proof/Laws/State.lean ====
section
/-! SUPPORT. One lemma per field per update of State, so that no later proof unfolds a record update. -/

namespace Sys2Proof.Machine

@[simp] theorem State.emit_cfg (o : Output) (s : State) :
    (s.emit o).cfg = s.cfg := rfl
@[simp] theorem State.emit_seq (o : Output) (s : State) :
    (s.emit o).seq = s.seq := rfl
@[simp] theorem State.emit_cur (o : Output) (s : State) :
    (s.emit o).cur = s.cur := rfl
@[simp] theorem State.emit_q (o : Output) (s : State) :
    (s.emit o).q = s.q := rfl
@[simp] theorem State.emit_nextTag (o : Output) (s : State) :
    (s.emit o).nextTag = s.nextTag := rfl
@[simp] theorem State.emit_speed (o : Output) (s : State) :
    (s.emit o).speed = s.speed := rfl
@[simp] theorem State.emit_stop (o : Output) (s : State) :
    (s.emit o).stop = s.stop := rfl
@[simp] theorem State.emit_msgs (o : Output) (s : State) :
    (s.emit o).msgs = s.msgs := rfl
@[simp] theorem State.emit_busBusy (o : Output) (s : State) :
    (s.emit o).busBusy = s.busBusy := rfl
@[simp] theorem State.emit_orphan (o : Output) (s : State) :
    (s.emit o).orphan = s.orphan := rfl
@[simp] theorem State.emit_log (o : Output) (s : State) :
    (s.emit o).log = s.log := rfl
@[simp] theorem State.emit_bus (o : Output) (s : State) :
    (s.emit o).bus = s.bus := rfl
@[simp] theorem State.emit_signals (o : Output) (s : State) :
    (s.emit o).signals = s.signals := rfl
@[simp] theorem State.emit_blocked (o : Output) (s : State) :
    (s.emit o).blocked = s.blocked := rfl
@[simp] theorem State.emit_now (o : Output) (s : State) :
    (s.emit o).now = s.now := rfl
@[simp] theorem State.emit_stopAt (o : Output) (s : State) :
    (s.emit o).stopAt = s.stopAt := rfl
@[simp] theorem State.emit_sched (o : Output) (s : State) :
    (s.emit o).sched = s.sched := rfl
@[simp] theorem State.emit_out (o : Output) (s : State) :
    (s.emit o).out = s.out ++ [o] := rfl

@[simp] theorem State.reject_cfg (k : RejectKind) (s : State) :
    (s.reject k).cfg = s.cfg := rfl
@[simp] theorem State.reject_seq (k : RejectKind) (s : State) :
    (s.reject k).seq = s.seq := rfl
@[simp] theorem State.reject_cur (k : RejectKind) (s : State) :
    (s.reject k).cur = s.cur := rfl
@[simp] theorem State.reject_q (k : RejectKind) (s : State) :
    (s.reject k).q = s.q := rfl
@[simp] theorem State.reject_nextTag (k : RejectKind) (s : State) :
    (s.reject k).nextTag = s.nextTag := rfl
@[simp] theorem State.reject_speed (k : RejectKind) (s : State) :
    (s.reject k).speed = s.speed := rfl
@[simp] theorem State.reject_stop (k : RejectKind) (s : State) :
    (s.reject k).stop = s.stop := rfl
@[simp] theorem State.reject_msgs (k : RejectKind) (s : State) :
    (s.reject k).msgs = s.msgs := rfl
@[simp] theorem State.reject_busBusy (k : RejectKind) (s : State) :
    (s.reject k).busBusy = s.busBusy := rfl
@[simp] theorem State.reject_orphan (k : RejectKind) (s : State) :
    (s.reject k).orphan = s.orphan := rfl
@[simp] theorem State.reject_log (k : RejectKind) (s : State) :
    (s.reject k).log = s.log := rfl
@[simp] theorem State.reject_bus (k : RejectKind) (s : State) :
    (s.reject k).bus = s.bus := rfl
@[simp] theorem State.reject_signals (k : RejectKind) (s : State) :
    (s.reject k).signals = s.signals := rfl
@[simp] theorem State.reject_blocked (k : RejectKind) (s : State) :
    (s.reject k).blocked = s.blocked := rfl
@[simp] theorem State.reject_now (k : RejectKind) (s : State) :
    (s.reject k).now = s.now := rfl
@[simp] theorem State.reject_stopAt (k : RejectKind) (s : State) :
    (s.reject k).stopAt = s.stopAt := rfl
@[simp] theorem State.reject_sched (k : RejectKind) (s : State) :
    (s.reject k).sched = s.sched := rfl
@[simp] theorem State.reject_out (k : RejectKind) (s : State) :
    (s.reject k).out = s.out ++ [.rejected k] := rfl

@[simp] theorem State.hold_cfg (i : Instr) (s : State) :
    (s.hold i).cfg = s.cfg := rfl
@[simp] theorem State.hold_seq (i : Instr) (s : State) :
    (s.hold i).seq = s.seq := rfl
@[simp] theorem State.hold_cur (i : Instr) (s : State) :
    (s.hold i).cur = s.cur := rfl
@[simp] theorem State.hold_q (i : Instr) (s : State) :
    (s.hold i).q = s.q := rfl
@[simp] theorem State.hold_nextTag (i : Instr) (s : State) :
    (s.hold i).nextTag = s.nextTag := rfl
@[simp] theorem State.hold_speed (i : Instr) (s : State) :
    (s.hold i).speed = s.speed := rfl
@[simp] theorem State.hold_stop (i : Instr) (s : State) :
    (s.hold i).stop = s.stop := rfl
@[simp] theorem State.hold_msgs (i : Instr) (s : State) :
    (s.hold i).msgs = s.msgs := rfl
@[simp] theorem State.hold_busBusy (i : Instr) (s : State) :
    (s.hold i).busBusy = s.busBusy := rfl
@[simp] theorem State.hold_orphan (i : Instr) (s : State) :
    (s.hold i).orphan = s.orphan := rfl
@[simp] theorem State.hold_log (i : Instr) (s : State) :
    (s.hold i).log = s.log := rfl
@[simp] theorem State.hold_bus (i : Instr) (s : State) :
    (s.hold i).bus = s.bus := rfl
@[simp] theorem State.hold_signals (i : Instr) (s : State) :
    (s.hold i).signals = s.signals := rfl
@[simp] theorem State.hold_blocked (i : Instr) (s : State) :
    (s.hold i).blocked = s.blocked ++ [i] := rfl
@[simp] theorem State.hold_now (i : Instr) (s : State) :
    (s.hold i).now = s.now := rfl
@[simp] theorem State.hold_stopAt (i : Instr) (s : State) :
    (s.hold i).stopAt = s.stopAt := rfl
@[simp] theorem State.hold_sched (i : Instr) (s : State) :
    (s.hold i).sched = s.sched := rfl
@[simp] theorem State.hold_out (i : Instr) (s : State) :
    (s.hold i).out = s.out := rfl

@[simp] theorem State.accept_cfg (i : Instr) (tx : List Byte) (segs : List Descriptor) (s : State) :
    (s.accept i tx segs).cfg = s.cfg := rfl
@[simp] theorem State.accept_seq (i : Instr) (tx : List Byte) (segs : List Descriptor) (s : State) :
    (s.accept i tx segs).seq = s.seq := rfl
@[simp] theorem State.accept_cur (i : Instr) (tx : List Byte) (segs : List Descriptor) (s : State) :
    (s.accept i tx segs).cur = s.cur := rfl
@[simp] theorem State.accept_q (i : Instr) (tx : List Byte) (segs : List Descriptor) (s : State) :
    (s.accept i tx segs).q = s.q ++ [s.nextTag] := rfl
@[simp] theorem State.accept_nextTag (i : Instr) (tx : List Byte) (segs : List Descriptor) (s : State) :
    (s.accept i tx segs).nextTag = s.nextTag + 1 := rfl
@[simp] theorem State.accept_speed (i : Instr) (tx : List Byte) (segs : List Descriptor) (s : State) :
    (s.accept i tx segs).speed = s.speed := rfl
@[simp] theorem State.accept_stop (i : Instr) (tx : List Byte) (segs : List Descriptor) (s : State) :
    (s.accept i tx segs).stop = s.stop := rfl
@[simp] theorem State.accept_msgs (i : Instr) (tx : List Byte) (segs : List Descriptor) (s : State) :
    (s.accept i tx segs).msgs = memPut s.msgs s.nextTag (newMessage i tx segs) := rfl
@[simp] theorem State.accept_busBusy (i : Instr) (tx : List Byte) (segs : List Descriptor) (s : State) :
    (s.accept i tx segs).busBusy = s.busBusy := rfl
@[simp] theorem State.accept_orphan (i : Instr) (tx : List Byte) (segs : List Descriptor) (s : State) :
    (s.accept i tx segs).orphan = s.orphan := rfl
@[simp] theorem State.accept_log (i : Instr) (tx : List Byte) (segs : List Descriptor) (s : State) :
    (s.accept i tx segs).log = s.log := rfl
@[simp] theorem State.accept_bus (i : Instr) (tx : List Byte) (segs : List Descriptor) (s : State) :
    (s.accept i tx segs).bus = s.bus := rfl
@[simp] theorem State.accept_signals (i : Instr) (tx : List Byte) (segs : List Descriptor) (s : State) :
    (s.accept i tx segs).signals = s.signals := rfl
@[simp] theorem State.accept_blocked (i : Instr) (tx : List Byte) (segs : List Descriptor) (s : State) :
    (s.accept i tx segs).blocked = s.blocked := rfl
@[simp] theorem State.accept_now (i : Instr) (tx : List Byte) (segs : List Descriptor) (s : State) :
    (s.accept i tx segs).now = s.now := rfl
@[simp] theorem State.accept_stopAt (i : Instr) (tx : List Byte) (segs : List Descriptor) (s : State) :
    (s.accept i tx segs).stopAt = s.stopAt := rfl
@[simp] theorem State.accept_sched (i : Instr) (tx : List Byte) (segs : List Descriptor) (s : State) :
    (s.accept i tx segs).sched = s.sched := rfl
@[simp] theorem State.accept_out (i : Instr) (tx : List Byte) (segs : List Descriptor) (s : State) :
    (s.accept i tx segs).out = s.out ++ [.accepted s.nextTag] := rfl

@[simp] theorem State.takeHead_cfg (t : Nat) (rest : List Nat) (m : Message) (s : State) :
    (s.takeHead t rest m).cfg = s.cfg := rfl
@[simp] theorem State.takeHead_seq (t : Nat) (rest : List Nat) (m : Message) (s : State) :
    (s.takeHead t rest m).seq = s.seq := rfl
@[simp] theorem State.takeHead_cur (t : Nat) (rest : List Nat) (m : Message) (s : State) :
    (s.takeHead t rest m).cur = some t := rfl
@[simp] theorem State.takeHead_q (t : Nat) (rest : List Nat) (m : Message) (s : State) :
    (s.takeHead t rest m).q = rest := rfl
@[simp] theorem State.takeHead_nextTag (t : Nat) (rest : List Nat) (m : Message) (s : State) :
    (s.takeHead t rest m).nextTag = s.nextTag := rfl
@[simp] theorem State.takeHead_speed (t : Nat) (rest : List Nat) (m : Message) (s : State) :
    (s.takeHead t rest m).speed = s.speed := rfl
@[simp] theorem State.takeHead_stop (t : Nat) (rest : List Nat) (m : Message) (s : State) :
    (s.takeHead t rest m).stop = s.stop := rfl
@[simp] theorem State.takeHead_msgs (t : Nat) (rest : List Nat) (m : Message) (s : State) :
    (s.takeHead t rest m).msgs = memPut s.msgs t m := rfl
@[simp] theorem State.takeHead_busBusy (t : Nat) (rest : List Nat) (m : Message) (s : State) :
    (s.takeHead t rest m).busBusy = s.busBusy := rfl
@[simp] theorem State.takeHead_orphan (t : Nat) (rest : List Nat) (m : Message) (s : State) :
    (s.takeHead t rest m).orphan = s.orphan := rfl
@[simp] theorem State.takeHead_log (t : Nat) (rest : List Nat) (m : Message) (s : State) :
    (s.takeHead t rest m).log = s.log := rfl
@[simp] theorem State.takeHead_bus (t : Nat) (rest : List Nat) (m : Message) (s : State) :
    (s.takeHead t rest m).bus = s.bus := rfl
@[simp] theorem State.takeHead_signals (t : Nat) (rest : List Nat) (m : Message) (s : State) :
    (s.takeHead t rest m).signals = s.signals := rfl
@[simp] theorem State.takeHead_blocked (t : Nat) (rest : List Nat) (m : Message) (s : State) :
    (s.takeHead t rest m).blocked = s.blocked := rfl
@[simp] theorem State.takeHead_now (t : Nat) (rest : List Nat) (m : Message) (s : State) :
    (s.takeHead t rest m).now = s.now := rfl
@[simp] theorem State.takeHead_stopAt (t : Nat) (rest : List Nat) (m : Message) (s : State) :
    (s.takeHead t rest m).stopAt = s.stopAt := rfl
@[simp] theorem State.takeHead_sched (t : Nat) (rest : List Nat) (m : Message) (s : State) :
    (s.takeHead t rest m).sched = s.sched := rfl
@[simp] theorem State.takeHead_out (t : Nat) (rest : List Nat) (m : Message) (s : State) :
    (s.takeHead t rest m).out = s.out := rfl

@[simp] theorem State.awaitBus_cfg (s : State) :
    (s.awaitBus).cfg = s.cfg := rfl
@[simp] theorem State.awaitBus_seq (s : State) :
    (s.awaitBus).seq = .waitBus := rfl
@[simp] theorem State.awaitBus_cur (s : State) :
    (s.awaitBus).cur = s.cur := rfl
@[simp] theorem State.awaitBus_q (s : State) :
    (s.awaitBus).q = s.q := rfl
@[simp] theorem State.awaitBus_nextTag (s : State) :
    (s.awaitBus).nextTag = s.nextTag := rfl
@[simp] theorem State.awaitBus_speed (s : State) :
    (s.awaitBus).speed = s.speed := rfl
@[simp] theorem State.awaitBus_stop (s : State) :
    (s.awaitBus).stop = s.stop := rfl
@[simp] theorem State.awaitBus_msgs (s : State) :
    (s.awaitBus).msgs = s.msgs := rfl
@[simp] theorem State.awaitBus_busBusy (s : State) :
    (s.awaitBus).busBusy = s.busBusy := rfl
@[simp] theorem State.awaitBus_orphan (s : State) :
    (s.awaitBus).orphan = s.orphan := rfl
@[simp] theorem State.awaitBus_log (s : State) :
    (s.awaitBus).log = s.log := rfl
@[simp] theorem State.awaitBus_bus (s : State) :
    (s.awaitBus).bus = s.bus := rfl
@[simp] theorem State.awaitBus_signals (s : State) :
    (s.awaitBus).signals = s.signals := rfl
@[simp] theorem State.awaitBus_blocked (s : State) :
    (s.awaitBus).blocked = s.blocked := rfl
@[simp] theorem State.awaitBus_now (s : State) :
    (s.awaitBus).now = s.now := rfl
@[simp] theorem State.awaitBus_stopAt (s : State) :
    (s.awaitBus).stopAt = s.stopAt := rfl
@[simp] theorem State.awaitBus_sched (s : State) :
    (s.awaitBus).sched = s.sched := rfl
@[simp] theorem State.awaitBus_out (s : State) :
    (s.awaitBus).out = s.out := rfl

@[simp] theorem State.scheduleNext_cfg (e : Event) (s : State) :
    (s.scheduleNext e).cfg = s.cfg := rfl
@[simp] theorem State.scheduleNext_seq (e : Event) (s : State) :
    (s.scheduleNext e).seq = s.seq := rfl
@[simp] theorem State.scheduleNext_cur (e : Event) (s : State) :
    (s.scheduleNext e).cur = s.cur := rfl
@[simp] theorem State.scheduleNext_q (e : Event) (s : State) :
    (s.scheduleNext e).q = s.q := rfl
@[simp] theorem State.scheduleNext_nextTag (e : Event) (s : State) :
    (s.scheduleNext e).nextTag = s.nextTag := rfl
@[simp] theorem State.scheduleNext_speed (e : Event) (s : State) :
    (s.scheduleNext e).speed = s.speed := rfl
@[simp] theorem State.scheduleNext_stop (e : Event) (s : State) :
    (s.scheduleNext e).stop = s.stop := rfl
@[simp] theorem State.scheduleNext_msgs (e : Event) (s : State) :
    (s.scheduleNext e).msgs = s.msgs := rfl
@[simp] theorem State.scheduleNext_busBusy (e : Event) (s : State) :
    (s.scheduleNext e).busBusy = s.busBusy := rfl
@[simp] theorem State.scheduleNext_orphan (e : Event) (s : State) :
    (s.scheduleNext e).orphan = s.orphan := rfl
@[simp] theorem State.scheduleNext_log (e : Event) (s : State) :
    (s.scheduleNext e).log = s.log := rfl
@[simp] theorem State.scheduleNext_bus (e : Event) (s : State) :
    (s.scheduleNext e).bus = s.bus := rfl
@[simp] theorem State.scheduleNext_signals (e : Event) (s : State) :
    (s.scheduleNext e).signals = s.signals := rfl
@[simp] theorem State.scheduleNext_blocked (e : Event) (s : State) :
    (s.scheduleNext e).blocked = s.blocked := rfl
@[simp] theorem State.scheduleNext_now (e : Event) (s : State) :
    (s.scheduleNext e).now = s.now := rfl
@[simp] theorem State.scheduleNext_stopAt (e : Event) (s : State) :
    (s.scheduleNext e).stopAt = s.stopAt := rfl
@[simp] theorem State.scheduleNext_sched (e : Event) (s : State) :
    (s.scheduleNext e).sched = e :: s.sched := rfl
@[simp] theorem State.scheduleNext_out (e : Event) (s : State) :
    (s.scheduleNext e).out = s.out := rfl

@[simp] theorem State.submit_cfg (t : Nat) (m : Message) (s : State) :
    (s.submit t m).cfg = s.cfg := rfl
@[simp] theorem State.submit_seq (t : Nat) (m : Message) (s : State) :
    (s.submit t m).seq = .inFlight := rfl
@[simp] theorem State.submit_cur (t : Nat) (m : Message) (s : State) :
    (s.submit t m).cur = s.cur := rfl
@[simp] theorem State.submit_q (t : Nat) (m : Message) (s : State) :
    (s.submit t m).q = s.q := rfl
@[simp] theorem State.submit_nextTag (t : Nat) (m : Message) (s : State) :
    (s.submit t m).nextTag = s.nextTag := rfl
@[simp] theorem State.submit_speed (t : Nat) (m : Message) (s : State) :
    (s.submit t m).speed = s.speed := rfl
@[simp] theorem State.submit_stop (t : Nat) (m : Message) (s : State) :
    (s.submit t m).stop = s.stop := rfl
@[simp] theorem State.submit_msgs (t : Nat) (m : Message) (s : State) :
    (s.submit t m).msgs = s.msgs := rfl
@[simp] theorem State.submit_busBusy (t : Nat) (m : Message) (s : State) :
    (s.submit t m).busBusy = true := rfl
@[simp] theorem State.submit_orphan (t : Nat) (m : Message) (s : State) :
    (s.submit t m).orphan = s.orphan := rfl
@[simp] theorem State.submit_log (t : Nat) (m : Message) (s : State) :
    (s.submit t m).log = s.log := rfl
@[simp] theorem State.submit_bus (t : Nat) (m : Message) (s : State) :
    (s.submit t m).bus = some (submissionOf m s) := rfl
@[simp] theorem State.submit_signals (t : Nat) (m : Message) (s : State) :
    (s.submit t m).signals = s.signals := rfl
@[simp] theorem State.submit_blocked (t : Nat) (m : Message) (s : State) :
    (s.submit t m).blocked = s.blocked := rfl
@[simp] theorem State.submit_now (t : Nat) (m : Message) (s : State) :
    (s.submit t m).now = s.now := rfl
@[simp] theorem State.submit_stopAt (t : Nat) (m : Message) (s : State) :
    (s.submit t m).stopAt = s.stopAt := rfl
@[simp] theorem State.submit_sched (t : Nat) (m : Message) (s : State) :
    (s.submit t m).sched = s.sched := rfl
@[simp] theorem State.submit_out (t : Nat) (m : Message) (s : State) :
    (s.submit t m).out = s.out ++ [.submitted t (submissionOf m s)] := rfl

@[simp] theorem State.releaseBus_cfg (s : State) :
    (s.releaseBus).cfg = s.cfg := rfl
@[simp] theorem State.releaseBus_seq (s : State) :
    (s.releaseBus).seq = s.seq := rfl
@[simp] theorem State.releaseBus_cur (s : State) :
    (s.releaseBus).cur = s.cur := rfl
@[simp] theorem State.releaseBus_q (s : State) :
    (s.releaseBus).q = s.q := rfl
@[simp] theorem State.releaseBus_nextTag (s : State) :
    (s.releaseBus).nextTag = s.nextTag := rfl
@[simp] theorem State.releaseBus_speed (s : State) :
    (s.releaseBus).speed = s.speed := rfl
@[simp] theorem State.releaseBus_stop (s : State) :
    (s.releaseBus).stop = s.stop := rfl
@[simp] theorem State.releaseBus_msgs (s : State) :
    (s.releaseBus).msgs = s.msgs := rfl
@[simp] theorem State.releaseBus_busBusy (s : State) :
    (s.releaseBus).busBusy = false := rfl
@[simp] theorem State.releaseBus_orphan (s : State) :
    (s.releaseBus).orphan = s.orphan := rfl
@[simp] theorem State.releaseBus_log (s : State) :
    (s.releaseBus).log = s.log := rfl
@[simp] theorem State.releaseBus_bus (s : State) :
    (s.releaseBus).bus = none := rfl
@[simp] theorem State.releaseBus_signals (s : State) :
    (s.releaseBus).signals = s.signals := rfl
@[simp] theorem State.releaseBus_blocked (s : State) :
    (s.releaseBus).blocked = s.blocked := rfl
@[simp] theorem State.releaseBus_now (s : State) :
    (s.releaseBus).now = s.now := rfl
@[simp] theorem State.releaseBus_stopAt (s : State) :
    (s.releaseBus).stopAt = s.stopAt := rfl
@[simp] theorem State.releaseBus_sched (s : State) :
    (s.releaseBus).sched = s.sched := rfl
@[simp] theorem State.releaseBus_out (s : State) :
    (s.releaseBus).out = s.out := rfl

@[simp] theorem State.finish_cfg (t : Nat) (m : Message) (c : Completion) (s : State) :
    (s.finish t m c).cfg = s.cfg := rfl
@[simp] theorem State.finish_seq (t : Nat) (m : Message) (c : Completion) (s : State) :
    (s.finish t m c).seq = afterCompletion s.stop := rfl
@[simp] theorem State.finish_cur (t : Nat) (m : Message) (c : Completion) (s : State) :
    (s.finish t m c).cur = none := rfl
@[simp] theorem State.finish_q (t : Nat) (m : Message) (c : Completion) (s : State) :
    (s.finish t m c).q = s.q := rfl
@[simp] theorem State.finish_nextTag (t : Nat) (m : Message) (c : Completion) (s : State) :
    (s.finish t m c).nextTag = s.nextTag := rfl
@[simp] theorem State.finish_speed (t : Nat) (m : Message) (c : Completion) (s : State) :
    (s.finish t m c).speed = s.speed := rfl
@[simp] theorem State.finish_stop (t : Nat) (m : Message) (c : Completion) (s : State) :
    (s.finish t m c).stop = s.stop := rfl
@[simp] theorem State.finish_msgs (t : Nat) (m : Message) (c : Completion) (s : State) :
    (s.finish t m c).msgs = memPut s.msgs t { m with state := c } := rfl
@[simp] theorem State.finish_busBusy (t : Nat) (m : Message) (c : Completion) (s : State) :
    (s.finish t m c).busBusy = s.busBusy := rfl
@[simp] theorem State.finish_orphan (t : Nat) (m : Message) (c : Completion) (s : State) :
    (s.finish t m c).orphan = s.orphan := rfl
@[simp] theorem State.finish_log (t : Nat) (m : Message) (c : Completion) (s : State) :
    (s.finish t m c).log = s.log ++ [(t, c)] := rfl
@[simp] theorem State.finish_bus (t : Nat) (m : Message) (c : Completion) (s : State) :
    (s.finish t m c).bus = s.bus := rfl
@[simp] theorem State.finish_signals (t : Nat) (m : Message) (c : Completion) (s : State) :
    (s.finish t m c).signals = s.signals ++ [t] := rfl
@[simp] theorem State.finish_blocked (t : Nat) (m : Message) (c : Completion) (s : State) :
    (s.finish t m c).blocked = s.blocked := rfl
@[simp] theorem State.finish_now (t : Nat) (m : Message) (c : Completion) (s : State) :
    (s.finish t m c).now = s.now := rfl
@[simp] theorem State.finish_stopAt (t : Nat) (m : Message) (c : Completion) (s : State) :
    (s.finish t m c).stopAt = s.stopAt := rfl
@[simp] theorem State.finish_sched (t : Nat) (m : Message) (c : Completion) (s : State) :
    (s.finish t m c).sched = s.sched := rfl
@[simp] theorem State.finish_out (t : Nat) (m : Message) (c : Completion) (s : State) :
    (s.finish t m c).out = s.out ++ [.completion t c] := rfl

@[simp] theorem State.discardOrphan_cfg (s : State) :
    (s.discardOrphan).cfg = s.cfg := rfl
@[simp] theorem State.discardOrphan_seq (s : State) :
    (s.discardOrphan).seq = s.seq := rfl
@[simp] theorem State.discardOrphan_cur (s : State) :
    (s.discardOrphan).cur = s.cur := rfl
@[simp] theorem State.discardOrphan_q (s : State) :
    (s.discardOrphan).q = s.q := rfl
@[simp] theorem State.discardOrphan_nextTag (s : State) :
    (s.discardOrphan).nextTag = s.nextTag := rfl
@[simp] theorem State.discardOrphan_speed (s : State) :
    (s.discardOrphan).speed = s.speed := rfl
@[simp] theorem State.discardOrphan_stop (s : State) :
    (s.discardOrphan).stop = s.stop := rfl
@[simp] theorem State.discardOrphan_msgs (s : State) :
    (s.discardOrphan).msgs = s.msgs := rfl
@[simp] theorem State.discardOrphan_busBusy (s : State) :
    (s.discardOrphan).busBusy = false := rfl
@[simp] theorem State.discardOrphan_orphan (s : State) :
    (s.discardOrphan).orphan = none := rfl
@[simp] theorem State.discardOrphan_log (s : State) :
    (s.discardOrphan).log = s.log := rfl
@[simp] theorem State.discardOrphan_bus (s : State) :
    (s.discardOrphan).bus = none := rfl
@[simp] theorem State.discardOrphan_signals (s : State) :
    (s.discardOrphan).signals = s.signals := rfl
@[simp] theorem State.discardOrphan_blocked (s : State) :
    (s.discardOrphan).blocked = s.blocked := rfl
@[simp] theorem State.discardOrphan_now (s : State) :
    (s.discardOrphan).now = s.now := rfl
@[simp] theorem State.discardOrphan_stopAt (s : State) :
    (s.discardOrphan).stopAt = s.stopAt := rfl
@[simp] theorem State.discardOrphan_sched (s : State) :
    (s.discardOrphan).sched = s.sched := rfl
@[simp] theorem State.discardOrphan_out (s : State) :
    (s.discardOrphan).out = s.out := rfl

@[simp] theorem expireMessage_cfg (t : Nat) (m : Message) (s : State) :
    (expireMessage t m s).cfg = s.cfg := rfl
@[simp] theorem expireMessage_seq (t : Nat) (m : Message) (s : State) :
    (expireMessage t m s).seq = afterCompletion s.stop := rfl
@[simp] theorem expireMessage_cur (t : Nat) (m : Message) (s : State) :
    (expireMessage t m s).cur = none := rfl
@[simp] theorem expireMessage_q (t : Nat) (m : Message) (s : State) :
    (expireMessage t m s).q = s.q := rfl
@[simp] theorem expireMessage_nextTag (t : Nat) (m : Message) (s : State) :
    (expireMessage t m s).nextTag = s.nextTag := rfl
@[simp] theorem expireMessage_speed (t : Nat) (m : Message) (s : State) :
    (expireMessage t m s).speed = s.speed := rfl
@[simp] theorem expireMessage_stop (t : Nat) (m : Message) (s : State) :
    (expireMessage t m s).stop = s.stop := rfl
@[simp] theorem expireMessage_msgs (t : Nat) (m : Message) (s : State) :
    (expireMessage t m s).msgs = memPut s.msgs t { m with state := .timedOut } := rfl
@[simp] theorem expireMessage_busBusy (t : Nat) (m : Message) (s : State) :
    (expireMessage t m s).busBusy = s.busBusy := rfl
@[simp] theorem expireMessage_orphan (t : Nat) (m : Message) (s : State) :
    (expireMessage t m s).orphan = if s.seq = SeqState.inFlight then some t else s.orphan := rfl
@[simp] theorem expireMessage_log (t : Nat) (m : Message) (s : State) :
    (expireMessage t m s).log = s.log ++ [(t, .timedOut)] := rfl
@[simp] theorem expireMessage_bus (t : Nat) (m : Message) (s : State) :
    (expireMessage t m s).bus = s.bus := rfl
@[simp] theorem expireMessage_signals (t : Nat) (m : Message) (s : State) :
    (expireMessage t m s).signals = s.signals ++ [t] := rfl
@[simp] theorem expireMessage_blocked (t : Nat) (m : Message) (s : State) :
    (expireMessage t m s).blocked = s.blocked := rfl
@[simp] theorem expireMessage_now (t : Nat) (m : Message) (s : State) :
    (expireMessage t m s).now = s.now := rfl
@[simp] theorem expireMessage_stopAt (t : Nat) (m : Message) (s : State) :
    (expireMessage t m s).stopAt = s.stopAt := rfl
@[simp] theorem expireMessage_sched (t : Nat) (m : Message) (s : State) :
    (expireMessage t m s).sched = s.sched := rfl
@[simp] theorem expireMessage_out (t : Nat) (m : Message) (s : State) :
    (expireMessage t m s).out = s.out ++ [.completion t .timedOut] := rfl

end Sys2Proof.Machine
end

