-- ==== Sys2Proof/Laws/Steps.lean ====
section
/-! SUPPORT. What each shared operation and each agent's step can do, said once: if it answers a next state, then one of these
cases holds. -/

namespace Sys2Proof.Machine

open Host (Outcome)

@[simp] theorem outcome_next_inj {s t : State} :
    (Outcome.next s : Outcome State Fault Refusal) = .next t ↔ s = t :=
  ⟨fun h => by cases h; rfl, fun h => by rw [h]⟩

/-- Enqueue rejects, holds or accepts (43_sequencer R127). -/
theorem enqueue_cases {i : Instr} {tx : List Byte} {segs : List Descriptor} {s s' : State}
    (h : enqueue i tx segs s = .next s') :
    (∃ k, check s.cfg i.op i.construction = some k ∧ s' = s.reject k) ∨
    (check s.cfg i.op i.construction = none ∧ s.queueFull = true ∧ s' = s.hold i) ∨
    (check s.cfg i.op i.construction = none ∧ s.queueFull = false ∧ s' = s.accept i tx segs) := by
  unfold enqueue at h
  split at h
  · next k hk => exact .inl ⟨k, hk, (outcome_next_inj.mp h).symm⟩
  · next hk =>
    split at h
    · next hf => exact .inr (.inl ⟨hk, hf, (outcome_next_inj.mp h).symm⟩)
    · next hf => exact .inr (.inr ⟨hk, by simpa using hf, (outcome_next_inj.mp h).symm⟩)

/-- Every request is answered by a rejection, a hold or an acceptance. -/
theorem exec_cases {i : Instr} {s s' : State} (h : exec i s = .next s') :
    (∃ k, s' = s.reject k) ∨
    (check s.cfg i.op i.construction = none ∧ s.queueFull = true ∧ s' = s.hold i) ∨
    (check s.cfg i.op i.construction = none ∧ s.queueFull = false ∧ ∃ tx segs, s' = s.accept i tx segs) := by
  have lift : ∀ {tx segs}, enqueue i tx segs s = .next s' → _ := fun {tx segs} (h : enqueue i tx segs s = .next s') =>
    (enqueue_cases h).imp (fun ⟨k, _, e⟩ => (⟨k, e⟩ : ∃ k, s' = s.reject k))
      (Or.imp id fun ⟨a, b, e⟩ =>
        (⟨a, b, tx, segs, e⟩ : check s.cfg i.op i.construction = none ∧ s.queueFull = false ∧
          ∃ tx segs, s' = s.accept i tx segs))
  cases i with
  | readBit c => exact lift h
  | readRegister c => exact lift h
  | writeBit c => exact lift h
  | writeRegister c => exact lift h
  | writeBits c => exact lift h
  | writeCharacter c => exact .inl ⟨_, (outcome_next_inj.mp h).symm⟩
  | writeString c => exact .inl ⟨_, (outcome_next_inj.mp h).symm⟩
  | readString c => exact .inl ⟨_, (outcome_next_inj.mp h).symm⟩
  | idle c => exact lift h
  | invalid c => exact .inl ⟨_, (outcome_next_inj.mp h).symm⟩

/-- Dispatch takes the head and submits it, or waits for the bus (43_sequencer R130). -/
theorem dispatchHead_cases {s s' : State} (h : dispatchHead s = .next s') :
    (s.q = [] ∧ s' = s) ∨
    ∃ t rest m, s.q = t :: rest ∧ memGet s.msgs t = some m ∧
      (s.busBusy = true ∧ s' = (s.takeHead t rest (armed s m)).awaitBus ∨
       s.busBusy = false ∧ s' = (s.takeHead t rest (armed s m)).submit t (armed s m)) := by
  unfold dispatchHead at h
  split at h
  · next hq => exact .inl ⟨hq, (outcome_next_inj.mp h).symm⟩
  · next t rest hq =>
    split at h
    · cases h
    · next m hm =>
      refine .inr ⟨t, rest, m, hq, hm, ?_⟩
      split at h
      · next hb => exact .inl ⟨hb, (outcome_next_inj.mp h).symm⟩
      · next hb => exact .inr ⟨by simpa using hb, (outcome_next_inj.mp h).symm⟩

/-- Submission of the current message (43_sequencer R131). -/
theorem submitCurrent_cases {s s' : State} (h : submitCurrent s = .next s') :
    (s.cur = none ∧ s' = s) ∨
    ∃ t m, s.cur = some t ∧ memGet s.msgs t = some m ∧ s' = s.submit t m := by
  unfold submitCurrent at h
  split at h
  · next hc => exact .inl ⟨hc, (outcome_next_inj.mp h).symm⟩
  · next t hc =>
    split at h
    · cases h
    · next m hm => exact .inr ⟨t, m, hc, hm, (outcome_next_inj.mp h).symm⟩

/-- The sequencer's step: nothing, Stopped, a dispatch or a submission (43_sequencer R126). -/
theorem sequencerStep_cases {s s' : State} (h : sequencerStep s = .next s') :
    s' = s ∨
    (s.seq = .idle ∧ s.stop = true ∧ s' = { s with seq := .stopped }) ∨
    (s.seq = .idle ∧ s.stop = false ∧ ∃ t rest m, s.q = t :: rest ∧ memGet s.msgs t = some m ∧
      (s.busBusy = true ∧ s' = (s.takeHead t rest (armed s m)).awaitBus ∨
       s.busBusy = false ∧ s' = (s.takeHead t rest (armed s m)).submit t (armed s m))) ∨
    (s.seq = .waitBus ∧ s.busBusy = false ∧ ∃ t m, s.cur = some t ∧ memGet s.msgs t = some m ∧ s' = s.submit t m) := by
  unfold sequencerStep at h
  split at h
  · exact .inl (outcome_next_inj.mp h).symm
  · next hs =>
    split at h
    · next hp => exact .inr (.inl ⟨hs, hp, (outcome_next_inj.mp h).symm⟩)
    · next hp =>
      rcases dispatchHead_cases h with ⟨_, e⟩ | hd
      · exact .inl e
      · exact .inr (.inr (.inl ⟨hs, by simpa using hp, hd⟩))
  · next hs =>
    split at h
    · exact .inl (outcome_next_inj.mp h).symm
    · next hb =>
      rcases submitCurrent_cases h with ⟨_, e⟩ | hd
      · exact .inl e
      · exact .inr (.inr (.inr ⟨hs, by simpa using hb, hd⟩))
  · exact .inl (outcome_next_inj.mp h).symm

/-- The timer's step: nothing, or the current message expires (43_sequencer R137). -/
theorem expireStep_cases {s s' : State} (h : expireStep s = .next s') :
    s' = s ∨
    ∃ t m, s.cur = some t ∧ (s.seq = .waitBus ∨ s.seq = .inFlight) ∧ memGet s.msgs t = some m ∧
      deadlineReached s m = true ∧ s' = expireMessage t m s := by
  unfold expireStep at h
  split at h
  · exact .inl (outcome_next_inj.mp h).symm
  · next t hc =>
    split at h
    · next hs =>
      split at h
      · cases h
      · next m hm =>
        split at h
        · next hd => exact .inr ⟨t, m, hc, hs, hm, hd, (outcome_next_inj.mp h).symm⟩
        · exact .inl (outcome_next_inj.mp h).symm
    · exact .inl (outcome_next_inj.mp h).symm

/-- The bus's step: nothing, the orphan's answer discarded, the expiry that goes first, or the current message answered
(43_sequencer R129, R133, R134, R138, R139). -/
theorem busStep_cases {a : BusAnswer} {s s' : State} (h : busStep a s = .next s') :
    s' = s ∨
    (s.busBusy = true ∧ answerFits s a = true ∧ (∃ t, s.orphan = some t) ∧ s' = s.discardOrphan) ∨
    (s.busBusy = true ∧ answerFits s a = true ∧ s.orphan = none ∧ s.seq = .inFlight ∧
      ∃ t m, s.cur = some t ∧ memGet s.msgs t = some m ∧
        (s.cfg.timed = true ∧ deadlineReached s m = true ∧ s' = (expireMessage t m s).scheduleNext (.bus a) ∨
         (s.cfg.timed && deadlineReached s m) = false ∧ s' = answerCurrent t m a s)) := by
  unfold busStep at h
  split at h
  · next hb =>
    have hb' : s.busBusy = true ∧ answerFits s a = true := by simpa using hb
    split at h
    · next t ho => exact .inr (.inl ⟨hb'.1, hb'.2, ⟨t, ho⟩, (outcome_next_inj.mp h).symm⟩)
    · next ho =>
      split at h
      · exact .inl (outcome_next_inj.mp h).symm
      · next t hc =>
        split at h
        · next hs =>
          split at h
          · cases h
          · next m hm =>
            refine .inr (.inr ⟨hb'.1, hb'.2, ho, hs, t, m, hc, hm, ?_⟩)
            split at h
            · next hd =>
              have hd' : s.cfg.timed = true ∧ deadlineReached s m = true := by simpa using hd
              exact .inl ⟨hd'.1, hd'.2, (outcome_next_inj.mp h).symm⟩
            · next hd => exact .inr ⟨by simpa using hd, (outcome_next_inj.mp h).symm⟩
        · exact .inl (outcome_next_inj.mp h).symm
  · exact .inl (outcome_next_inj.mp h).symm

/-- A held producer's turn: nothing, or its request is run with the producer taken off the list (43_sequencer R148). -/
theorem resumeStep_cases {k : Nat} {s s' : State} (h : resumeStep k s = .next s') :
    s' = s ∨
    ∃ i, s.blocked[k]? = some i ∧ s.queueFull = false ∧ exec i { s with blocked := s.blocked.eraseIdx k } = .next s' := by
  unfold resumeStep at h
  split at h
  · exact .inl (outcome_next_inj.mp h).symm
  · next i hi =>
    split at h
    · exact .inl (outcome_next_inj.mp h).symm
    · next hf => exact .inr ⟨i, hi, by simpa using hf, h⟩

/-- A presented request runs (43_sequencer R127). -/
theorem presentStep_cases {p : Presented} {s s' : State} (h : presentStep p s = .next s') :
    ∃ i, fetch s.cfg p = .ok i ∧ exec i s = .next s' := by
  unfold presentStep at h
  split at h
  · next i hi => exact ⟨i, hi, h⟩
  · cases h

/-- The clock's step: nothing, or some time passes in the timed refinement (43_sequencer R138). -/
theorem tickStep_cases {micros : Nat} {s s' : State} (h : tickStep micros s = .next s') :
    s' = s ∨ (s.cfg.timed = true ∧ tickAllowed s micros = true ∧ s' = { s with now := s.now + micros }) := by
  unfold tickStep at h
  split at h
  · next hc =>
    have hc' : s.cfg.timed = true ∧ tickAllowed s micros = true := by simpa using hc
    exact .inr ⟨hc'.1, hc'.2, (outcome_next_inj.mp h).symm⟩
  · exact .inl (outcome_next_inj.mp h).symm

/-- The host's reads of a message: an answer, and at most a signal cleared (60_exceptions R171, 70_reset R193). -/
theorem readStateStep_cases {t : Nat} {s s' : State} (h : readStateStep t s = .next s') :
    ∃ m, memGet s.msgs t = some m ∧
      s' = { s.emit (.messageState t m.state) with signals := s.signals.filter (fun u => u != t) } := by
  unfold readStateStep at h
  split at h
  · cases h
  · next m hm => exact ⟨m, hm, (outcome_next_inj.mp h).symm⟩

theorem readRxStep_cases {t : Nat} {s s' : State} (h : readRxStep t s = .next s') :
    ∃ m bytes, memGet s.msgs t = some m ∧ m.state ≠ .pending ∧ m.rx = some bytes ∧
      s' = s.emit (.messageRx t bytes) := by
  unfold readRxStep at h
  split at h
  · cases h
  · next m hm =>
    split at h
    · cases h
    · next hp =>
      split at h
      · cases h
      · next bytes hb => exact ⟨m, bytes, hm, hp, hb, (outcome_next_inj.mp h).symm⟩

theorem readResultStep_cases {t : Nat} {s s' : State} (h : readResultStep t s = .next s') :
    ∃ m, memGet s.msgs t = some m ∧ m.state ≠ .pending ∧ s' = s.emit (.messageResult t m.result) := by
  unfold readResultStep at h
  split at h
  · cases h
  · next m hm =>
    split at h
    · cases h
    · next hp => exact ⟨m, hm, hp, (outcome_next_inj.mp h).symm⟩

/-- Start: the machine goes Idle, answers DeviceUnavailable, or nothing happens (43_sequencer R147). -/
theorem startStep_cases {opens : Bool} {s s' : State} (h : startStep opens s = .next s') :
    (s.seq = .stopped ∧ s' = { s with stop := false, seq := .idle }) ∨
    s' = s.emit .deviceUnavailable ∨ s' = s := by
  unfold startStep at h
  split at h
  · next hs =>
    split at h
    · exact .inl ⟨hs, (outcome_next_inj.mp h).symm⟩
    · exact .inr (.inl (outcome_next_inj.mp h).symm)
  · exact .inr (.inr (outcome_next_inj.mp h).symm)

/-- SetSpeed: a positive rate, or a refusal (43_sequencer R145). -/
theorem setSpeedStep_cases {hz : Nat} {s s' : State} (h : setSpeedStep hz s = .next s') :
    (0 < hz ∧ s' = { s with speed := hz }) ∨ s' = s.emit .speedRefused := by
  unfold setSpeedStep at h
  split at h
  · next hz => exact .inl ⟨hz, (outcome_next_inj.mp h).symm⟩
  · exact .inr (outcome_next_inj.mp h).symm

/-- A step is the next event's, on the state without it, or, with nothing scheduled, the sequencer's or the first held producer's. -/
theorem step_cases {s s' : State} (h : step s = .next s') :
    (∃ e rest, s.sched = e :: rest ∧ eventStep e { s with sched := rest } = .next s') ∨
    (s.sched = [] ∧ (sequencerStep s = .next s' ∨ resumeStep 0 s = .next s')) := by
  unfold step agentStep at h
  split at h
  · next hs =>
    unfold quietStep at h
    split at h
    · exact .inr ⟨hs, .inl h⟩
    · exact .inr ⟨hs, .inr h⟩
  · next e rest hs => exact .inl ⟨e, rest, hs, h⟩

end Sys2Proof.Machine
end

