-- ==== Sys2Proof/Laws/Fairness.lean ====
section
/-! SUPPORT. The small laws of endless runs: feeding changes the schedule alone, and what an agent's step does where it is enabled. -/

namespace Sys2Proof.Machine

open Host (Outcome)

theorem feed_of_nil {e : Event} {s : State} (h : s.sched = []) : feed e s = s.scheduleNext e := by
  simp only [feed, h]

theorem feed_of_cons {e f : Event} {rest : List Event} {s : State} (h : s.sched = f :: rest) : feed e s = s := by
  simp only [feed, h]

/-- Feeding changes the schedule and nothing else. -/
theorem feed_eq_sched (e : Event) (s : State) : ∃ es, feed e s = { s with sched := es } := by
  cases h : s.sched with
  | nil => exact ⟨_, feed_of_nil h⟩
  | cons f rest => exact ⟨s.sched, feed_of_cons h⟩

/-- A step that an event names takes that event off the schedule. -/
theorem taken_sched {supply : Nat → Event} {run : Nat → State} {e : Event} {n : Nat} (h : Taken supply run e n) :
    ∃ rest, (feed (supply n) (run n)).sched = e :: rest :=
  List.head?_eq_some_iff.mp h

/-- Expiry is enabled exactly where a message is served and its deadline reached (43_sequencer R137, R138). -/
theorem expiryEnabled_iff {s : State} : expiryEnabled s = true ↔
    ∃ t m, s.cur = some t ∧ (s.seq = .waitBus ∨ s.seq = .inFlight) ∧ memGet s.msgs t = some m ∧
      deadlineReached s m = true := by
  unfold expiryEnabled
  constructor
  · intro h
    split at h
    · cases h
    · next t hc =>
      split at h
      · next hs =>
        split at h
        · cases h
        · next m hm => exact ⟨t, m, hc, hs, hm, h⟩
      · cases h
  · rintro ⟨t, m, hc, hs, hm, hd⟩
    simp only [hc, hm, if_pos hs, hd]

/-- Where expiry is enabled the timer's step ends the current message (43_sequencer R137). -/
theorem expireStep_of_enabled {s : State} (h : expiryEnabled s = true) :
    ∃ t m, s.cur = some t ∧ memGet s.msgs t = some m ∧ expireStep s = .next (expireMessage t m s) := by
  obtain ⟨t, m, hc, hs, hm, hd⟩ := expiryEnabled_iff.mp h
  exact ⟨t, m, hc, hm, by simp only [expireStep, hc, hm, if_pos hs, if_pos hd]⟩

/-- A step is the next scheduled event's (00_scope R14). -/
theorem step_of_sched {e : Event} {rest : List Event} {s : State} (h : s.sched = e :: rest) :
    step s = eventStep e { s with sched := rest } := by
  simp only [step, agentStep, h]

end Sys2Proof.Machine
end

