-- ==== Sys2Proof/Laws/Memory.lean ====
section
/-! SUPPORT. The laws of the message store: read after write, and the canonical form is kept. -/

namespace Sys2Proof.Machine

@[simp] theorem memGet_nil (t : Nat) : memGet [] t = none := rfl

@[simp] theorem memGet_put_same (s : Memory) (t : Nat) (m : Message) : memGet (memPut s t m) t = some m := by
  induction s with
  | nil => simp [memPut, memGet]
  | cons e rest ih =>
    obtain ⟨k, r⟩ := e
    by_cases h1 : t < k
    · simp [memPut, memGet, h1]
    · by_cases h2 : t = k
      · simp [memPut, memGet, h2]
      · have h3 : k ≠ t := fun h => h2 h.symm
        simp [memPut, memGet, h1, h2, h3, ih]

theorem memGet_put_other (s : Memory) {t u : Nat} (m : Message) (h : u ≠ t) :
    memGet (memPut s t m) u = memGet s u := by
  have h' : t ≠ u := fun e => h e.symm
  induction s with
  | nil => simp [memPut, memGet, h']
  | cons e rest ih =>
    obtain ⟨k, r⟩ := e
    by_cases h1 : t < k
    · simp [memPut, memGet, h1, h']
    · by_cases h2 : t = k
      · subst h2; simp [memPut, memGet, h']
      · simp only [memPut, h1, h2, if_false, memGet, ih]

theorem memGet_put (s : Memory) (t u : Nat) (m : Message) :
    memGet (memPut s t m) u = if u = t then some m else memGet s u := by
  by_cases h : u = t
  · subst h; simp
  · simp [h, memGet_put_other s m h]

/-- The tags of a store after a write: the old ones and the one written. -/
theorem mem_keys_memPut (s : Memory) (t u : Nat) (m : Message) :
    u ∈ (memPut s t m).map Prod.fst ↔ u = t ∨ u ∈ s.map Prod.fst := by
  induction s with
  | nil => simp [memPut]
  | cons e rest ih =>
    obtain ⟨k, r⟩ := e
    by_cases h1 : t < k
    · simp [memPut, h1]
    · by_cases h2 : t = k
      · subst h2; simp [memPut]
      · rw [show memPut ((k, r) :: rest) t m = (k, r) :: memPut rest t m by simp [memPut, h1, h2]]
        simp only [List.map_cons, List.mem_cons, ih]
        tauto

/-- A write keeps the canonical form. -/
theorem memPut_wf (s : Memory) (t : Nat) (m : Message) (h : Memory.wf s) : Memory.wf (memPut s t m) := by
  induction s with
  | nil => simp [Memory.wf, memPut]
  | cons e rest ih =>
    obtain ⟨k, r⟩ := e
    have hk : ∀ u ∈ rest.map Prod.fst, k < u := (List.pairwise_cons.mp h).1
    have hr : Memory.wf rest := (List.pairwise_cons.mp h).2
    by_cases h1 : t < k
    · simp only [Memory.wf, memPut, h1, if_true, List.map_cons, List.pairwise_cons]
      refine ⟨fun u hu => ?_, hk, hr⟩
      rcases List.mem_cons.mp hu with rfl | hu
      · exact h1
      · exact lt_trans h1 (hk u hu)
    · by_cases h2 : t = k
      · subst h2
        simpa [Memory.wf, memPut] using h
      · simp only [Memory.wf, memPut, h1, h2, if_false, List.map_cons, List.pairwise_cons]
        refine ⟨fun u hu => ?_, ih hr⟩
        rcases (mem_keys_memPut rest t u m).mp hu with rfl | hu
        · omega
        · exact hk u hu

/-- The reset store has the canonical form. -/
theorem reset_msgs_wf : Memory.wf State.reset.msgs := List.Pairwise.nil

/-- A byte of another message's buffers is not touched by a write. -/
theorem byteAt_put_other (s : Memory) {t u : Nat} (m : Message) (b : Buffer) (off : Nat) (h : u ≠ t) :
    byteAt (memPut s t m) u b off = byteAt s u b off := by
  simp [byteAt, memGet_put_other s m h]

end Sys2Proof.Machine
end

