-- ==== Sys2Proof/Laws/PerInstr.lean ====
section
/-! SUPPORT. Statements about every instruction as syntax, one lemma per constructor. -/

open Sys2Proof Sys2Proof.Machine

/-- The first byte of a well-formed request's words is its opcode's wire value (30_encoding R66, R68, R70), so the sentinel, which
has none, has no words. -/
def Sys2Proof.Laws.FirstByte.Statement (i : Instr) : Prop :=
  ∀ cfg : Config, i.wellFormed cfg = true → (encode cfg i).head? = opcodeByte cfg.opcodes i.op

theorem Sys2Proof.Laws.FirstByte.readBit (c : Construction) : Sys2Proof.Laws.FirstByte.Statement (.readBit c) := by
  intro cfg h; cases c <;> first | rfl | cases h

theorem Sys2Proof.Laws.FirstByte.readRegister (c : Construction) :
    Sys2Proof.Laws.FirstByte.Statement (.readRegister c) := by
  intro cfg h; cases c <;> first | rfl | cases h

theorem Sys2Proof.Laws.FirstByte.writeBit (c : Construction) : Sys2Proof.Laws.FirstByte.Statement (.writeBit c) := by
  intro cfg h
  cases c <;> first | cases h | (simp only [encode, encodeWriteBit]; split <;> rfl)

theorem Sys2Proof.Laws.FirstByte.writeRegister (c : Construction) :
    Sys2Proof.Laws.FirstByte.Statement (.writeRegister c) := by
  intro cfg h; cases c <;> first | rfl | cases h

theorem Sys2Proof.Laws.FirstByte.writeBits (c : Construction) : Sys2Proof.Laws.FirstByte.Statement (.writeBits c) := by
  intro cfg h; cases c <;> first | rfl | cases h

theorem Sys2Proof.Laws.FirstByte.writeCharacter (c : Construction) :
    Sys2Proof.Laws.FirstByte.Statement (.writeCharacter c) := by
  intro cfg h; cases c <;> first | rfl | cases h

theorem Sys2Proof.Laws.FirstByte.writeString (c : Construction) :
    Sys2Proof.Laws.FirstByte.Statement (.writeString c) := by
  intro cfg h; cases c <;> first | rfl | cases h

theorem Sys2Proof.Laws.FirstByte.readString (c : Construction) :
    Sys2Proof.Laws.FirstByte.Statement (.readString c) := by
  intro cfg h; cases c <;> first | rfl | cases h

theorem Sys2Proof.Laws.FirstByte.idle (c : Construction) : Sys2Proof.Laws.FirstByte.Statement (.idle c) := by
  intro cfg h; cases c <;> first | rfl | cases h

theorem Sys2Proof.Laws.FirstByte.invalid (c : Construction) : Sys2Proof.Laws.FirstByte.Statement (.invalid c) := by
  intro cfg h; cases h
end

