-- ==== Sys2Proof/Machine/Commands.lean ====
section
/-! DEFINITION. The commands of a host program (30_encoding R81) and the agent's step each stands for. The commands are data here:
how a line of text spells one is not modelled. The block's own step never reads these (log 24). -/

namespace Sys2Proof.Machine

/-- The request that names an opcode by a construction (30_encoding R62). -/
def requestOf (op : FunctionCode) (c : Construction) : Instr :=
  match op with
  | .readBit => .readBit c
  | .readRegister => .readRegister c
  | .writeBit => .writeBit c
  | .writeRegister => .writeRegister c
  | .writeBits => .writeBits c
  | .writeCharacter => .writeCharacter c
  | .writeString => .writeString c
  | .readString => .readString c
  | .idle => .idle c
  | .invalid => .invalid c

/-- One command of a host program (30_encoding R81). -/
inductive HostCommand where
  /-- `read <op>, <addr>, <count>`. -/
  | read (op : FunctionCode) (addr : Half) (count : Nat)
  /-- `write1 <op>, <addr>, <value>`. -/
  | write1 (op : FunctionCode) (addr value : Half)
  /-- `writen <op>, <addr>, [<v0>, ...]`. -/
  | writen (op : FunctionCode) (addr : Half) (values : List Half)
  /-- `idle`. -/
  | idle
  /-- `speed <hz>`. -/
  | speed (hz : Nat)
  /-- `start`; `opens` says whether the bus port can be opened (43_sequencer R147). -/
  | start (opens : Bool)
  /-- `shutdown`. -/
  | shutdown
  /-- `bus ok [<bytes>]`. -/
  | busOk (bytes : List Byte)
  /-- `bus fail`. -/
  | busFail
  /-- `bus late ok [<bytes>]`: the same answer, after its message has ended. -/
  | busLateOk (bytes : List Byte)
  /-- `expire`. -/
  | expire
deriving DecidableEq, Repr

/-- The step a command stands for (30_encoding R81). -/
def HostCommand.event : HostCommand → Event
  | .read op addr count => .present (.term (requestOf op (.read addr count)))
  | .write1 op addr value => .present (.term (requestOf op (.writeOne addr value)))
  | .writen op addr values => .present (.term (requestOf op (.writeMany addr values)))
  | .idle => .present (.term (.idle .noOperands))
  | .speed hz => .setSpeed hz
  | .start opens => .start opens
  | .shutdown => .shutdown
  | .busOk bytes => .bus (.ok bytes)
  | .busFail => .bus .fail
  | .busLateOk bytes => .bus (.ok bytes)
  | .expire => .expire

end Sys2Proof.Machine
end

