-- ==== Sys2Proof/Tests/Slice0.lean ====
section
/-! SUPPORT. The model's own tests. Expected bytes and values are the spec's (95_test_vectors, named by vector), or read off the
encoding tables of 30_encoding. The second half gives, for each statement with hypotheses, concrete values that meet them. -/

namespace Sys2Proof.Tests

open Sys2Proof.Machine Sys2Proof.Safety Host

/-! Well-formedness: one ill-formed term for each check, and one that passes. -/

theorem test_wf_readBit_count : (Instr.readBit (.read 0 256)).wellFormed defaultConfig = false := by decide
theorem test_wf_readBit_construction : (Instr.readBit .noOperands).wellFormed defaultConfig = false := by decide
theorem test_wf_readRegister_count : (Instr.readRegister (.read 0 256)).wellFormed defaultConfig = false := by decide
theorem test_wf_readRegister_construction :
    (Instr.readRegister (.writeOne 0 1)).wellFormed defaultConfig = false := by decide
theorem test_wf_writeBit_address : (Instr.writeBit (.writeOne 0x100 1)).wellFormed defaultConfig = false := by decide
theorem test_wf_writeBit_value : (Instr.writeBit (.writeOne 5 0x100)).wellFormed
    { defaultConfig with onePhaseLayout := .addrWord } = false := by decide
theorem test_wf_writeBit_construction : (Instr.writeBit (.read 5 1)).wellFormed defaultConfig = false := by decide
theorem test_wf_writeRegister_length :
    (Instr.writeRegister (.writeMany 0 (List.replicate 256 0))).wellFormed defaultConfig = false := by decide +kernel
theorem test_wf_writeRegister_construction :
    (Instr.writeRegister (.writeOne 0 1)).wellFormed defaultConfig = false := by decide
theorem test_wf_writeBits_length :
    (Instr.writeBits (.writeMany 0 (List.replicate 256 1))).wellFormed defaultConfig = false := by decide +kernel
theorem test_wf_writeBits_value : (Instr.writeBits (.writeMany 0 [1, 2])).wellFormed defaultConfig = false := by decide
theorem test_wf_writeBits_construction : (Instr.writeBits (.read 0 1)).wellFormed defaultConfig = false := by decide
theorem test_wf_unsupported_operands : (Instr.writeCharacter (.read 0 1)).wellFormed defaultConfig = false ∧
    (Instr.writeString (.read 0 1)).wellFormed defaultConfig = false ∧
    (Instr.readString (.read 0 1)).wellFormed defaultConfig = false := by decide
theorem test_wf_idle_operands : (Instr.idle (.read 0 1)).wellFormed defaultConfig = false := by decide
theorem test_wf_invalid : (Instr.invalid .noOperands).wellFormed defaultConfig = false := by decide
theorem test_wf_accepts : (Instr.writeBit (.writeOne 0xFF 1)).wellFormed defaultConfig = true := by decide

/-! Decoding: every constructor's word, byte by byte from 30_encoding R66 to R72 (vectors of 95_test_vectors 2.2). -/

/-- What a decoding answers, with the error's name dropped. -/
def read (cfg : Config) (bytes : List Byte) : Option Instr :=
  match decodeWhole cfg bytes with
  | .ok i => some i
  | .error _ => none

/-- The error of a decoding. -/
def readError (bytes : List Byte) : Option DecodeError :=
  match decodeWhole defaultConfig bytes with
  | .ok _ => none
  | .error e => some e

/-- F1. -/
theorem test_decode_readBit : read defaultConfig [0x01, 0x0A, 0x20, 0x00, 0, 0, 0x92, 0x10] =
    some (.readBit (.read 0x0020 10)) := by decide
/-- F7. -/
theorem test_decode_readRegister :
    read defaultConfig [0x04, 0x05, 0xE8, 0x03, 0, 0, 0, 0, 0, 0, 0, 0, 0, 0, 0x65, 0xA4] =
    some (.readRegister (.read 1000 5)) := by decide
/-- F12. -/
theorem test_decode_writeBit : read defaultConfig [0x05, 0x05, 0x01, 0x00, 0x11, 0x5D] =
    some (.writeBit (.writeOne 5 1)) := by decide
/-- F25. -/
theorem test_decode_writeBit_addrWord :
    read { defaultConfig with onePhaseLayout := .addrWord } [0x05, 0x01, 0xFF, 0x01, 0xD1, 0x3C] =
    some (.writeBit (.writeOne 0x01FF 1)) := by decide
/-- F17. -/
theorem test_decode_writeRegister :
    read defaultConfig [0x06, 0x02, 0x64, 0x00, 0x34, 0x12, 0xCD, 0xAB, 0x10, 0xD4] =
    some (.writeRegister (.writeMany 100 [0x1234, 0xABCD])) := by decide
/-- F20. -/
theorem test_decode_writeBits : read defaultConfig [0x0F, 0x09, 0x10, 0x00, 0x8D, 0x01, 0x7C, 0xAE] =
    some (.writeBits (.writeMany 16 [1, 0, 1, 1, 0, 0, 0, 1, 1])) := by decide
theorem test_decode_writeCharacter : read defaultConfig [0x41] = some (.writeCharacter .noOperands) := by decide
theorem test_decode_writeString : read defaultConfig [0x64] = some (.writeString .noOperands) := by decide
theorem test_decode_readString : read defaultConfig [0x65] = some (.readString .noOperands) := by decide
/-- F23. -/
theorem test_decode_idle : read defaultConfig [0xFA, 0, 0, 0, 0x30, 0xD8] = some (.idle .noOperands) := by decide
/-- The sentinel has no wire value (30_encoding R66): no byte decodes to it. -/
theorem test_decode_no_invalid (b : Byte) : functionCodeOf defaultOpcodes b ≠ some .invalid := by
  unfold functionCodeOf; split_ifs <;> simp

theorem test_refuse_noBytes : readError [] = some .noBytes := by decide
theorem test_refuse_unknownOpcode : readError [0x02, 0, 0, 0, 0, 0] = some .unknownOpcode := by decide
theorem test_refuse_truncated : readError [0x05, 0x05, 0x01] = some .truncated := by decide
theorem test_refuse_idle_operand : readError [0xFA, 1, 0, 0, 0, 0] = some .fixedField := by decide
theorem test_refuse_read_payload : readError [0x01, 1, 0, 0, 1, 0, 0] = some .readPayload := by decide
theorem test_refuse_pad_bits : readError [0x0F, 1, 0, 0, 3, 0, 0] = some .padBits := by decide
theorem test_refuse_trailing : readError [0x41, 0] = some .trailingBytes := by decide

/-! Checksum unit (95_test_vectors 2.1, 40_checksum R93). -/

theorem test_checksum_check_value :
    checksum defaultCrcTable [0x31, 0x32, 0x33, 0x34, 0x35, 0x36, 0x37, 0x38, 0x39] 0 = 0xBB3D := by decide
theorem test_checksum_seed :
    checksum defaultCrcTable [0x31, 0x32, 0x33, 0x34, 0x35, 0x36, 0x37, 0x38, 0x39] 0xFFFF = 0x4B37 := by decide

/-! Instructions. -/

/-- The default configuration with numbers in place of the OPEN ones. -/
def cfgT : Config :=
  { defaultConfig with settleDelayUs := 77, timeoutUs := 100, pollIntervalUs := 10, defaultSpeedHz := 1000000 }

/-- The state right after reset, under `cfgT`. -/
def base : State := { State.reset with cfg := cfgT, speed := 1000000 }

/-- The next state, if there is one. -/
def nextOf (o : Outcome State Fault Refusal) : Option State :=
  match o with
  | .next s => some s
  | .fault _ => none
  | .refused _ => none

/-- The fault, if there is one. -/
def faultOf (o : Outcome State Fault Refusal) : Option Fault :=
  match o with
  | .next _ => none
  | .fault f => some f
  | .refused _ => none

/-- The frame and the list of the message a request makes, and the answers. -/
def enqueued (s : State) (i : Instr) : Option (List (List Byte × List Descriptor) × List Output) :=
  (nextOf (exec i s)).map (fun t => (t.msgs.map (fun e => (e.2.tx, e.2.segs)), t.out))

/-- F1, G3. -/
theorem test_readBit : enqueued base (.readBit (.read 0x0020 10)) =
    some ([([0x01, 0x0A, 0x20, 0x00, 0, 0, 0x92, 0x10], [⟨77, 0, 0, 0⟩, ⟨0, 0, 0, 4⟩, ⟨0, 4, 4, 2⟩, ⟨0, 6, 6, 2⟩])],
      [.accepted 0]) := by decide
/-- F7, G5. -/
theorem test_readRegister : enqueued base (.readRegister (.read 1000 5)) =
    some ([([0x04, 0x05, 0xE8, 0x03, 0, 0, 0, 0, 0, 0, 0, 0, 0, 0, 0x65, 0xA4],
      [⟨77, 0, 0, 0⟩, ⟨0, 0, 0, 4⟩, ⟨0, 4, 4, 10⟩, ⟨0, 14, 14, 2⟩])], [.accepted 0]) := by decide
/-- 42_segmentation R125: 129 registers need eight descriptors. -/
theorem test_readRegister_too_large : enqueued base (.readRegister (.read 0 129)) =
    some ([], [.rejected .requestTooLarge]) := by decide
/-- F12, G1. -/
theorem test_writeBit : enqueued base (.writeBit (.writeOne 5 1)) =
    some ([([0x05, 0x05, 0x01, 0x00, 0x11, 0x5D], [⟨77, 0, 0, 0⟩, ⟨0, 0, 0, 6⟩])], [.accepted 0]) := by decide
theorem test_writeBit_far : enqueued base (.writeBit (.writeOne 0x100 1)) =
    some ([], [.rejected .requestUnsupported]) := by decide
/-- F15. -/
theorem test_writeRegister : enqueued base (.writeRegister (.writeOne 7 0xBEEF)) =
    some ([([0x06, 0x01, 0x07, 0x00, 0xEF, 0xBE, 0xF0, 0x92],
      [⟨77, 0, 0, 0⟩, ⟨0, 0, 0, 4⟩, ⟨0, 4, 4, 2⟩, ⟨0, 6, 6, 2⟩])], [.accepted 0]) := by decide
/-- 42_segmentation R124: 127 registers are too many. -/
theorem test_writeRegister_too_large : enqueued base (.writeRegister (.writeMany 0 (List.replicate 127 2))) =
    some ([], [.rejected .requestTooLarge]) := by decide +kernel
/-- F20, and G3's list. -/
theorem test_writeBits : enqueued base (.writeBits (.writeMany 16 [1, 0, 1, 1, 0, 0, 0, 1, 1])) =
    some ([([0x0F, 0x09, 0x10, 0x00, 0x8D, 0x01, 0x7C, 0xAE],
      [⟨77, 0, 0, 0⟩, ⟨0, 0, 0, 4⟩, ⟨0, 4, 4, 2⟩, ⟨0, 6, 6, 2⟩])], [.accepted 0]) := by decide
theorem test_writeBits_value : enqueued base (.writeBits (.writeMany 0 [1, 2])) =
    some ([], [.rejected .requestUnsupported]) := by decide
theorem test_writeCharacter : enqueued base (.writeCharacter (.writeOne 0 1)) =
    some ([], [.rejected .requestUnsupported]) := by decide
theorem test_writeString : enqueued base (.writeString (.writeMany 0 [1])) =
    some ([], [.rejected .requestUnsupported]) := by decide
theorem test_readString : enqueued base (.readString (.read 0 1)) =
    some ([], [.rejected .requestUnsupported]) := by decide
/-- F23. -/
theorem test_idle : enqueued base (.idle .noOperands) =
    some ([([0xFA, 0, 0, 0, 0x30, 0xD8], [⟨77, 0, 0, 0⟩, ⟨0, 0, 0, 6⟩])], [.accepted 0]) := by decide
theorem test_invalid : enqueued base (.invalid .noOperands) = some ([], [.rejected .requestUnsupported]) := by decide
/-- F30: HeaderOnly. -/
theorem test_headerOnly : enqueued { base with cfg := { cfgT with crcScope := .headerOnly } }
      (.writeBits (.writeMany 3 [1, 1, 0, 1])) =
    some ([([0x0F, 0x04, 0x03, 0x00, 0x0B, 0x42, 0x25],
      [⟨77, 0, 0, 0⟩, ⟨0, 0, 0, 4⟩, ⟨0, 4, 4, 1⟩, ⟨0, 5, 5, 2⟩])], [.accepted 0]) := by decide

/-! Replies (95_test_vectors 2.4). -/

/-- V1. -/
theorem test_reply_good : validate cfgT .readRegister 1000 5
      [0x04, 0x05, 0xE8, 0x03, 0x01, 0x04, 0x08, 0x04, 0x32, 0, 0, 0, 0, 0, 0x46, 0xD5] =
    (.completed, .registers [0x0401, 0x0408, 0x0032, 0, 0]) := by decide
/-- V5. -/
theorem test_reply_address : validate cfgT .readRegister 1000 5
      [0x04, 0x05, 0xE9, 0x03, 0x01, 0x04, 0x08, 0x04, 0x32, 0, 0, 0, 0, 0, 0xBB, 0x16] =
    (.protocolError, .nothing) := by decide
/-- V2: a payload byte changed, the trailer kept. -/
theorem test_reply_checksum : validate cfgT .readRegister 1000 5
      [0x04, 0x05, 0xE8, 0x03, 0x00, 0x04, 0x08, 0x04, 0x32, 0, 0, 0, 0, 0, 0x46, 0xD5] =
    (.protocolError, .nothing) := by decide
/-- V21 and V22: one reply, whose header checksum is right, under HeaderOnly and under HeaderPlusPayload. -/
theorem test_reply_scope :
    (validate { cfgT with crcScope := .headerOnly } .readRegister 1000 5
      [0x04, 0x05, 0xE8, 0x03, 0xEE, 0x04, 0x08, 0x04, 0x32, 0, 0, 0, 0, 0, 0x1F, 0x30]).1 = .completed ∧
    (validate cfgT .readRegister 1000 5
      [0x04, 0x05, 0xE8, 0x03, 0xEE, 0x04, 0x08, 0x04, 0x32, 0, 0, 0, 0, 0, 0x1F, 0x30]).1 = .protocolError := by decide
/-- V9. -/
theorem test_reply_bits : validate cfgT .readBit 0x20 10 [0x01, 0x0A, 0x20, 0x00, 0xA5, 0xFF, 0xA9, 0x00] =
    (.completed, .bits [true, false, true, false, false, true, false, true, true, true]) := by decide
/-- V16. -/
theorem test_reply_onePhase : validate cfgT .writeBit 5 1 [0x05, 0x99, 0x99, 0x99, 0, 0] = (.completed, .nothing) := by
  decide

/-! Programs (95_test_vectors part 3), one command and the sequencer's step after it. -/

/-- The schedule of a program. -/
def program (cs : List HostCommand) : List Event := cs.flatMap (fun c => [c.event, .sequencer])

/-- The log, the queue and the orphan after a program from `base`. -/
def ends (cs : List HostCommand) : Option (List (Nat × Completion) × List Nat × Option Nat) :=
  (nextOf (Host.Core.run Sys2Proof.core (program cs).length { base with sched := program cs })).map
    (fun s => (s.log, s.q, s.orphan))

/-- P3: a timeout in flight, its transfer answered late, the next message served. -/
theorem test_program_timeout :
    ends [.start true, .write1 .writeRegister 7 0xBEEF, .idle, .expire,
      .busLateOk [0x06, 0x01, 0x07, 0x00, 0xEF, 0xBE, 0xF0, 0x92], .busOk [0xFA, 0, 0, 0, 0x30, 0xD8]] =
    some ([(0, .timedOut), (1, .completed)], [], none) := by decide

/-- An instance on a free device is created at reset, one on a taken device is refused, and tear-down ends it. -/
theorem test_instances : createInstance 1 8 [⟨0, 7, base⟩] = .next [⟨0, 7, base⟩, ⟨1, 8, State.reset⟩] ∧
    createInstance 1 7 [⟨0, 7, base⟩] = .refused .sharedDevice ∧ tearDown 0 [⟨0, 7, base⟩] = [] := ⟨rfl, rfl, rfl⟩

/-! States with one message, and the invariant on them. -/

/-- A record right after acceptance: `Read(ReadBit, 5, 1)` (F6, G2). -/
def msg : Message where
  op := .readBit
  addr := 5
  count := 1
  values := []
  tx := [0x01, 0x01, 0x05, 0x00, 0x00, 0x2C, 0x3D]
  segs := [⟨77, 0, 0, 0⟩, ⟨0, 0, 0, 4⟩, ⟨0, 4, 4, 1⟩, ⟨0, 5, 5, 2⟩]
  rx := none
  deadline := none
  state := .pending
  result := .nothing

/-- Its reply with the bit set. -/
def reply : List Byte := [0x01, 0x01, 0x05, 0x00, 0x01, 0xED, 0xFD]

/-- The record dispatched. -/
def msgArmed : Message := { msg with deadline := some 100 }

/-- The record ended. -/
def msgEnded (c : Completion) (rx : Option (List Byte)) (r : ReadResult) : Message :=
  { msgArmed with state := c, rx := rx, result := r }

/-- The submission of `msg` at the base rate. -/
def sub : Submission := ⟨msg.segs, msg.tx, 1000000⟩

/-- Idle, the message queued; the given events are to come. -/
def sQueued (es : List Event) : State :=
  { base with seq := .idle, q := [0], nextTag := 1, msgs := [(0, msg)], sched := es }

/-- The message in flight. -/
def sFlight (es : List Event) : State :=
  { base with
    seq := .inFlight, cur := some 0, nextTag := 1, msgs := [(0, msgArmed)], busBusy := true, bus := some sub
    sched := es }

/-- The message ended, the bus free. -/
def sEnded (c : Completion) (rx : Option (List Byte)) (r : ReadResult) (es : List Event) : State :=
  { base with seq := .idle, nextTag := 1, msgs := [(0, msgEnded c rx r)], log := [(0, c)], sched := es }

/-- The message timed out in flight: its transfer is the orphan. -/
def sOrphan (es : List Event) : State :=
  { base with
    seq := .idle, nextTag := 1, msgs := [(0, msgEnded .timedOut none .nothing)], log := [(0, .timedOut)]
    busBusy := true, bus := some sub, orphan := some 0, sched := es }

/-- The same with a second message queued. -/
def sOrphanQueued (es : List Event) : State :=
  { sOrphan es with q := [1], nextTag := 2, msgs := [(0, msgEnded .timedOut none .nothing), (1, msg)] }

/-- The second message waiting for the bus. -/
def sWaiting (es : List Event) : State :=
  { sOrphan es with
    seq := .waitBus, cur := some 1, nextTag := 2
    msgs := [(0, msgEnded .timedOut none .nothing), (1, msgArmed)] }

theorem inv_queued (es : List Event) : Inv (sQueued es) := by
  refine ⟨⟨?_, ?_, ?_⟩, ⟨?_, ?_, ?_⟩, ⟨?_, ?_, ?_, ?_, ?_, ?_⟩, ⟨?_, ?_, ?_, ?_, ?_⟩, ⟨?_, ?_, ?_, ?_, ?_⟩, ?_⟩ <;>
    simp_all [sQueued, base, State.reset, memGet, msg, Memory.wf, serving]
  · rintro t m bytes rfl rfl h; cases h
  · exact ⟨rfl, rfl, rfl, rfl⟩

theorem inv_flight (es : List Event) : Inv (sFlight es) := by
  refine ⟨⟨?_, ?_, ?_⟩, ⟨?_, ?_, ?_⟩, ⟨?_, ?_, ?_, ?_, ?_, ?_⟩, ⟨?_, ?_, ?_, ?_, ?_⟩, ⟨?_, ?_, ?_, ?_, ?_⟩, ?_⟩ <;>
    simp_all [sFlight, base, State.reset, memGet, msgArmed, msg, Memory.wf, serving, sub]
  · rintro t m bytes rfl rfl h; cases h
  · exact ⟨rfl, rfl, rfl, rfl⟩

theorem inv_orphan (es : List Event) : Inv (sOrphan es) := by
  refine ⟨⟨?_, ?_, ?_⟩, ⟨?_, ?_, ?_⟩, ⟨?_, ?_, ?_, ?_, ?_, ?_⟩, ⟨?_, ?_, ?_, ?_, ?_⟩, ⟨?_, ?_, ?_, ?_, ?_⟩, ?_⟩ <;>
    simp_all [sOrphan, base, State.reset, memGet, msgEnded, msgArmed, msg, sub, Memory.wf, serving]
  rintro t m bytes rfl rfl h; cases h

theorem inv_ended {c : Completion} {rx : Option (List Byte)} {r : ReadResult} (es : List Event) (hc : c ≠ .pending)
    (hx : rx.isSome = true ↔ (c = .completed ∨ c = .protocolError)) (hl : ∀ b, rx = some b → b.length = 7)
    (hr : c ≠ .completed → r = .nothing) : Inv (sEnded c rx r es) := by
  refine ⟨⟨?_, ?_, ?_⟩, ⟨?_, ?_, ?_⟩, ⟨?_, ?_, ?_, ?_, ?_, ?_⟩, ⟨?_, ?_, ?_, ?_, ?_⟩, ⟨?_, ?_, ?_, ?_, ?_⟩, ?_⟩ <;>
    simp_all [sEnded, base, State.reset, memGet, msgEnded, msgArmed, msg, Memory.wf, serving]
  rintro t m bytes rfl rfl h; exact hl _ h

theorem inv_base (es : List Event) : Inv { base with sched := es } := by
  refine ⟨⟨?_, ?_, ?_⟩, ⟨?_, ?_, ?_⟩, ⟨?_, ?_, ?_, ?_, ?_, ?_⟩, ⟨?_, ?_, ?_, ?_, ?_⟩, ⟨?_, ?_, ?_, ?_, ?_⟩, ?_⟩ <;>
    simp_all [base, State.reset, Memory.wf, serving]

/-! Witnesses: for each statement with hypotheses, values that meet them, each clause at a boundary. -/

theorem witness_DecodeReadsBackEncode : defaultConfig.opcodes.injective ∧
    (Instr.readBit (.read 0xFFFF 255)).wellFormed defaultConfig = true ∧
    (Instr.writeBit (.writeOne 0xFF 0xFFFF)).wellFormed defaultConfig = true ∧
    (Instr.writeBits (.writeMany 0 [1, 0])).wellFormed defaultConfig = true := by decide

/-- A trailer that is not the checksum, and bytes after the frame. -/
theorem witness_DecodedBytesAreTheFrame :
    decode defaultConfig [0x0F, 1, 0, 0, 1, 7, 7, 9] = .ok (.writeBits (.writeMany 0 [1]), [9]) ∧
    decode defaultConfig [0xFA, 0, 0, 0, 7, 7] = .ok (.idle .noOperands, []) ∧
    decode defaultConfig [0x41] = .ok (.writeCharacter .noOperands, []) := ⟨rfl, rfl, rfl⟩

theorem refLimits : RefLimits cfgT := ⟨rfl, rfl, rfl⟩

theorem witness_AcceptedRequestsExactly :
    check cfgT .readBit (.read 0 255) = none ∧ check cfgT .readRegister (.read 0 128) = none ∧
    check cfgT .writeBit (.writeOne 0xFF 1) = none ∧ check cfgT .writeRegister (.writeOne 0 0xFFFF) = none ∧
    check cfgT .writeRegister (.writeMany 0 (List.replicate 126 2)) = none ∧
    check cfgT .writeBits (.writeOne 0 1) = none ∧
    check cfgT .writeBits (.writeMany 0 (List.replicate 255 1)) = none ∧
    check cfgT .idle .noOperands = none := by decide +kernel

theorem witness_TooLargeRequestsExactly :
    check cfgT .readBit (.read 0 256) = some .requestTooLarge ∧
    check cfgT .readRegister (.read 0 129) = some .requestTooLarge ∧
    check cfgT .writeRegister (.writeMany 0 (List.replicate 127 2)) = some .requestTooLarge ∧
    check cfgT .writeBits (.writeMany 0 (List.replicate 256 1)) = some .requestTooLarge := by decide +kernel

theorem witness_RejectionChangesNothing :
    check base.cfg .writeRegister (.writeMany 0 (List.replicate 127 2)) = some .requestTooLarge ∧
    check base.cfg .writeBit (.writeOne 0x100 1) = some .requestUnsupported := by decide +kernel

theorem witness_AcceptedRequestIsEntered :
    check base.cfg .readBit (.read 5 1) = none ∧ base.queueFull = false := by decide

/-- The state with a queue of one place, taken; a producer held; the given events to come. -/
def sFull (es : List Event) : State :=
  { sQueued es with cfg := { cfgT with queueCapacity := some 1 }, blocked := [apiIdle] }

theorem witness_FullQueueHoldsProducer :
    (check (sFull []).cfg .idle .noOperands = none ∧ (sFull []).queueFull = true) ∧
    ((sFull [.resume 0]).sched = [.resume 0] ∧ (sFull [.resume 0]).queueFull = true) ∧
    ({ sFull [.resume 0] with q := [] }.sched = [.resume 0] ∧ { sFull [.resume 0] with q := [] }.blocked[0]? = some apiIdle ∧
      { sFull [.resume 0] with q := [] }.queueFull = false) := by decide

/-- The counts 1, 128 and 255. -/
theorem witness_ReadsAreEntered : RefLimits base.cfg ∧ base.queueFull = false ∧ (1 : Nat) ≤ 1 ∧ 1 ≤ 128 ∧ 128 ≤ 128 ∧
    1 ≤ 255 ∧ 255 ≤ 255 := ⟨refLimits, by decide⟩

theorem witness_WriteBitIsEntered :
    ((1 : Half).toNat ≤ 1 ∧ base.queueFull = false ∧ base.cfg.onePhaseLayout = .addrByte ∧ (0xFF : Half).toNat ≤ 0xFF) ∧
    ({ base with cfg := { cfgT with onePhaseLayout := .addrWord } }.queueFull = false ∧
      { base with cfg := { cfgT with onePhaseLayout := .addrWord } }.cfg.onePhaseLayout = .addrWord) := by decide

theorem witness_WriteRegisterIsEntered : RefLimits base.cfg ∧ base.queueFull = false ∧
    1 ≤ (List.replicate 126 (2 : Half)).length ∧ (List.replicate 126 (2 : Half)).length ≤ 126 :=
  ⟨refLimits, by decide, by simp, by simp⟩

theorem witness_WriteBitsIsEntered : RefLimits base.cfg ∧ base.queueFull = false ∧
    1 ≤ (List.replicate 255 (1 : Half)).length ∧ (List.replicate 255 (1 : Half)).length ≤ 255 ∧
    (∀ v ∈ List.replicate 255 (1 : Half), v.toNat ≤ 1) ∧ (1 : Half).toNat ≤ 1 :=
  ⟨refLimits, by decide, by decide +kernel, by decide +kernel, fun v hv => by rw [List.eq_of_mem_replicate hv]; decide,
    by decide⟩

theorem witness_IdleIsEntered : base.queueFull = false := by decide

/-- A rejection, an acceptance and a hold. -/
theorem witness_RequestFrame : exec (.readString .noOperands) base = .next (base.reject .requestUnsupported) ∧
    (∃ s', exec apiIdle base = .next s') ∧ exec apiIdle (sFull []) = .next ((sFull []).hold apiIdle) :=
  ⟨rfl, ⟨_, rfl⟩, rfl⟩

theorem witness_FrameLengths : RefLimits cfgT ∧ check cfgT .readRegister (.read 0 128) = none ∧
    check cfgT .idle .noOperands = none := ⟨refLimits, by decide, by decide⟩

/-- No payload, one byte, one full chunk, one byte more. -/
theorem witness_PayloadChunksClosedForm : 0 < cfgT.chunkLimit ∧ payloadChunks 64 0 0 0 = [] ∧
    payloadChunks 64 1 1 0 = [⟨0, 4, 4, 1⟩] ∧ payloadChunks 64 65 65 0 = [⟨0, 4, 4, 64⟩, ⟨0, 68, 68, 1⟩] := by
  decide

theorem witness_SegmentListInvariants : 6 ≤ cfgT.chunkLimit ∧ 2 ≤ cfgT.maxDesc ∧
    check cfgT .readRegister (.read 0 128) = none ∧ check cfgT .writeBit (.writeOne 5 1) = none := by decide

theorem witness_WireCarriesTheFrame : 0 < cfgT.chunkLimit ∧ check cfgT .readBit (.read 5 1) = none ∧
    reply.length = (acceptedRecord cfgT (apiReadBits 5 1)).tx.length ∧
    (zeros 7).length = (acceptedRecord cfgT (apiReadBits 5 1)).tx.length := by decide

/-- Both classes at the frame's length, a reply that completes and one that does not, and an opcode that reads nothing. -/
theorem witness_ReplyVerdict : reply.length = flen .readBit 1 ∧ (zeros 7).length = flen .readBit 1 ∧
    (zeros 6).length = flen .idle 0 ∧ (zeros 8).length = flen .writeRegister 1 ∧ isTwoPhase .readBit = true ∧ isTwoPhase .idle = false ∧
    validateState cfgT .readBit 5 1 reply = .completed ∧ validateState cfgT .readBit 5 1 (zeros 7) ≠ .completed ∧
    isRead .writeRegister = false := by decide

theorem witness_EchoPassesZerosFail : check cfgT .idle .noOperands = none ∧ check cfgT .writeBits (.writeOne 0 1) = none ∧
    cfgT.crcTable = defaultCrcTable ∧ cfgT.crcInit = 0#16 ∧ cfgT.opcodes = defaultOpcodes ∧
    isTwoPhase .readBit = true := ⟨by decide, by decide, rfl, rfl, rfl, rfl⟩

/-- V20 and V21: two replies that differ in a payload byte. -/
theorem witness_HeaderOnlyIgnoresPayload :
    { cfgT with crcScope := .headerOnly }.crcScope = .headerOnly ∧ isTwoPhase .readBit = true ∧
    [1, 1, 5, 0, 1, 7, 7].length = flen .readBit 1 ∧ [1, 1, 5, 0, 2, 7, 7].length = flen .readBit 1 ∧
    (∀ k, k < 4 → byteOf [1, 1, 5, 0, 1, 7, 7] k = byteOf [1, 1, 5, 0, 2, 7, 7] k) ∧
    (∀ k, 4 + plen .readBit 1 ≤ k → byteOf [1, 1, 5, 0, 1, 7, 7] k = byteOf [1, 1, 5, 0, 2, 7, 7] k) := by
  refine ⟨rfl, rfl, rfl, rfl, by decide, ?_⟩
  intro k hk
  have h5 : 5 ≤ k := hk
  obtain ⟨j, rfl⟩ := Nat.exists_eq_add_of_le h5
  rw [Nat.add_comm]
  rfl

/-- Nine bits, the last in the second byte, with its pad bits set. -/
theorem witness_ResultsReadBackPayload : ([4, 1, 0, 0] : List Byte).length = 4 ∧ ([0x8D, 0xFF] : List Byte).length =
      ceilDiv [true, false, true, true, false, false, false, true, true].length 8 ∧
    (∀ k : Fin 9, bitAt [0x8D, 0xFF] k = [true, false, true, true, false, false, false, true, true][k]) := by decide

theorem witness_StepRunsPresentedRequest :
    { base with sched := [.present (.term apiIdle)] }.sched = [.present (.term apiIdle)] ∧
    ({ base with sched := [.present (.frame [0xFA, 0, 0, 0, 0x30, 0xD8])] }.sched =
        [.present (.frame [0xFA, 0, 0, 0, 0x30, 0xD8])] ∧
      decodeWhole base.cfg [0xFA, 0, 0, 0, 0x30, 0xD8] = .ok apiIdle) ∧
    ({ base with sched := [.present (.frame [0x00])] }.sched = [.present (.frame [0x00])] ∧
      decodeWhole base.cfg [0x00] = .error .unknownOpcode) ∧
    decodeWhole base.cfg (tableImage base.cfg 48 0xD830_0000_00_FA) = .ok apiIdle :=
  ⟨rfl, ⟨rfl, rfl⟩, ⟨rfl, rfl⟩, by decide +kernel⟩

/-- The bus free, and the bus held by an orphan. -/
theorem witness_DispatchServesHead :
    ((sQueued [.sequencer]).sched = [.sequencer] ∧ (sQueued [.sequencer]).seq = .idle ∧
      (sQueued [.sequencer]).stop = false ∧ (sQueued [.sequencer]).q = [0] ∧ memGet (sQueued [.sequencer]).msgs 0 = some msg ∧ (sQueued [.sequencer]).busBusy = false) ∧
    ((sOrphanQueued [.sequencer]).sched = [.sequencer] ∧ (sOrphanQueued [.sequencer]).seq = .idle ∧ (sOrphanQueued [.sequencer]).stop = false ∧
      (sOrphanQueued [.sequencer]).q = [1] ∧ memGet (sOrphanQueued [.sequencer]).msgs 1 = some msg ∧
      (sOrphanQueued [.sequencer]).busBusy = true) := by decide

theorem witness_WaitBusHoldsThenSubmits :
    ((sWaiting [.sequencer]).sched = [.sequencer] ∧ (sWaiting [.sequencer]).seq = .waitBus ∧ (sWaiting [.sequencer]).cur = some 1 ∧
      memGet (sWaiting [.sequencer]).msgs 1 = some msgArmed ∧ (sWaiting [.sequencer]).busBusy = true) ∧
    ((sWaiting [.sequencer]).discardOrphan.sched = [.sequencer] ∧
      (sWaiting [.sequencer]).discardOrphan.seq = .waitBus ∧ (sWaiting [.sequencer]).discardOrphan.cur = some 1 ∧
      memGet (sWaiting [.sequencer]).discardOrphan.msgs 1 = some msgArmed ∧
      (sWaiting [.sequencer]).discardOrphan.busBusy = false) := by decide

theorem witness_FailAnswerEndsMessage : (sFlight [.bus .fail]).sched = [.bus .fail] ∧
    (sFlight [.bus .fail]).busBusy = true ∧ (sFlight [.bus .fail]).bus = some sub ∧
    (sFlight [.bus .fail]).orphan = none ∧ (sFlight [.bus .fail]).seq = .inFlight ∧
    (sFlight [.bus .fail]).cur = some 0 ∧ memGet (sFlight [.bus .fail]).msgs 0 = some msgArmed ∧
    ((sFlight [.bus .fail]).cfg.timed && deadlineReached (sFlight [.bus .fail]) msgArmed) = false := by decide

theorem witness_OkAnswerEndsMessage : (sFlight [.bus (.ok reply)]).sched = [.bus (.ok reply)] ∧
    (sFlight [.bus (.ok reply)]).busBusy = true ∧ (sFlight [.bus (.ok reply)]).bus = some sub ∧
    reply.length = sub.tx.length ∧ (sFlight [.bus (.ok reply)]).orphan = none ∧
    (sFlight [.bus (.ok reply)]).seq = .inFlight ∧ (sFlight [.bus (.ok reply)]).cur = some 0 ∧
    memGet (sFlight [.bus (.ok reply)]).msgs 0 = some msgArmed ∧
    ((sFlight [.bus (.ok reply)]).cfg.timed && deadlineReached (sFlight [.bus (.ok reply)]) msgArmed) = false ∧
    validate cfgT msgArmed.op msgArmed.addr msgArmed.count reply = (.completed, .bits [true]) := by decide

/-- The timed refinement in force, the clock at the given time. -/
def timedAt (now : Nat) (s : State) : State := { s with cfg := { s.cfg with timed := true }, now := now }

/-- Untimed; timed at the deadline; timed one microsecond before it. -/
theorem witness_ExpiryEndsMessage :
    ((sFlight [.expire]).sched = [.expire] ∧ serving (sFlight [.expire]) ∧ (sFlight [.expire]).cur = some 0 ∧
      memGet (sFlight [.expire]).msgs 0 = some msgArmed ∧ (sFlight [.expire]).cfg.timed = false) ∧
    ((sWaiting [.expire]).sched = [.expire] ∧ serving (sWaiting [.expire]) ∧ (sWaiting [.expire]).cur = some 1 ∧ memGet (sWaiting [.expire]).msgs 1 = some msgArmed) ∧
    ((timedAt 100 (sFlight [.expire])).sched = [.expire] ∧ serving (timedAt 100 (sFlight [.expire])) ∧
      (timedAt 100 (sFlight [.expire])).cur = some 0 ∧ memGet (timedAt 100 (sFlight [.expire])).msgs 0 = some msgArmed ∧
      msgArmed.deadline = some 100 ∧ 100 ≤ (timedAt 100 (sFlight [.expire])).now) ∧
    ((timedAt 99 (sFlight [.expire])).sched = [.expire] ∧ serving (timedAt 99 (sFlight [.expire])) ∧
      (timedAt 99 (sFlight [.expire])).cur = some 0 ∧ memGet (timedAt 99 (sFlight [.expire])).msgs 0 = some msgArmed ∧
      (timedAt 99 (sFlight [.expire])).cfg.timed = true ∧ (timedAt 99 (sFlight [.expire])).now < 100) := by decide

theorem witness_OrphanAnswerDiscarded : (sOrphan [.bus .fail]).sched = [.bus .fail] ∧
    (sOrphan [.bus .fail]).busBusy = true ∧ (sOrphan [.bus .fail]).bus = some sub ∧
    (sOrphan [.bus .fail]).orphan = some 0 ∧ ∀ bytes, BusAnswer.fail = .ok bytes → bytes.length = sub.tx.length :=
  ⟨rfl, rfl, rfl, rfl, fun _ h => by cases h⟩

theorem witness_LateAnswerLosesToDeadline :
    (timedAt 100 (sFlight [.bus .fail])).cfg.timed = true ∧
    (timedAt 100 (sFlight [.bus .fail])).sched = [.bus .fail] ∧
    (timedAt 100 (sFlight [.bus .fail])).busBusy = true ∧ (timedAt 100 (sFlight [.bus .fail])).bus = some sub ∧
    (timedAt 100 (sFlight [.bus .fail])).orphan = none ∧ (timedAt 100 (sFlight [.bus .fail])).seq = .inFlight ∧
    (timedAt 100 (sFlight [.bus .fail])).cur = some 0 ∧
    memGet (timedAt 100 (sFlight [.bus .fail])).msgs 0 = some msgArmed ∧ msgArmed.deadline = some 100 ∧
    100 ≤ (timedAt 100 (sFlight [.bus .fail])).now := by decide

/-- A timed run of three steps: the clock moves to the deadline, the answer comes, and loses to it. -/
theorem witness_TimedRunIsUntimedRun : (timedAt 0 (sFlight [.tick 100, .bus .fail])).cfg.timed = true ∧
    ((nextOf (Host.Core.run Sys2Proof.core 3 (timedAt 0 (sFlight [.tick 100, .bus .fail])))).map State.log =
      some [(0, .timedOut)]) := by decide

/-- The clock one microsecond inside the poll interval. -/
theorem witness_EmptyQueueWaits :
    ({ base with seq := .idle }.sched = [] ∧ { base with seq := .idle }.stop = false ∧
      { base with seq := .idle }.q = [] ∧ { base with seq := .idle }.blocked = []) ∧
    { base with seq := .idle, sched := [.sequencer] }.sched = [.sequencer] ∧
    ((timedAt 9 { base with seq := .idle, stop := true, sched := [.tick 1] }).cfg.timed = true ∧
      (timedAt 9 { base with seq := .idle, stop := true, sched := [.tick 1] }).now ≤ 0 + cfgT.pollIntervalUs ∧
      (nextOf (step (timedAt 9 { base with seq := .idle, stop := true, sched := [.tick 1] }))).map State.now = some 10) ∧
    (timedAt 9 { base with seq := .idle, stop := true, sched := [.tick 2] }).stopAt + cfgT.pollIntervalUs < 9 + 2 ∧
    ((timedAt 9 (sFlight [.tick 1])).cfg.timed = true ∧ (timedAt 9 (sFlight [.tick 1])).sched = [.tick 1] ∧
      (timedAt 9 (sFlight [.tick 1])).seq ≠ .idle) ∧
    ((sFlight [.tick 1]).cfg.timed = false ∧ (sFlight [.tick 1]).sched = [.tick 1]) := by
  decide

theorem witness_SetSpeedWritesPositive : { base with sched := [.setSpeed 1] }.sched = [.setSpeed 1] ∧ 0 < 1 ∧
    { base with sched := [.setSpeed 0] }.sched = [.setSpeed 0] := by decide

/-- A submission; an outstanding transfer kept over SetSpeed, and answered. -/
theorem witness_RateSampledAtSubmission :
    (Inv (sQueued [.sequencer]) ∧ (sQueued [.sequencer]).bus = none ∧
      (nextOf (step (sQueued [.sequencer]))).map (fun s' => (s'.out, s'.bus)) =
        some ((sQueued [.sequencer]).out ++ [.submitted 0 sub], some sub)) ∧
    (Inv (sFlight [.setSpeed 5]) ∧ (sFlight [.setSpeed 5]).bus = some sub ∧
      (nextOf (step (sFlight [.setSpeed 5]))).map State.bus = some (some sub)) ∧
    (Inv (sFlight [.bus .fail]) ∧ (nextOf (step (sFlight [.bus .fail]))).map State.bus = some none) :=
  ⟨⟨inv_queued _, by decide, by decide⟩, ⟨inv_flight _, by decide, by decide⟩, inv_flight _, by decide⟩

theorem witness_ShutdownStopsIdleSequencer : { base with sched := [.shutdown] }.sched = [.shutdown] ∧
    { sQueued [.sequencer] with stop := true }.sched = [.sequencer] ∧
    { sQueued [.sequencer] with stop := true }.seq = .idle ∧ { sQueued [.sequencer] with stop := true }.stop = true := by
  decide

/-- Idle with a message queued: the step is to Stopped. In flight: the step ends the current message. -/
theorem witness_NoDispatchWhileStopped :
    ({ sQueued [.sequencer] with stop := true }.stop = true ∧
      (∀ opens rest, { sQueued [.sequencer] with stop := true }.sched ≠ .start opens :: rest) ∧
      (nextOf (step { sQueued [.sequencer] with stop := true })).map State.seq = some .stopped) ∧
    ({ sFlight [.expire] with stop := true }.stop = true ∧
      (∀ opens rest, { sFlight [.expire] with stop := true }.sched ≠ .start opens :: rest) ∧
      (nextOf (step { sFlight [.expire] with stop := true })).map State.cur = some none) :=
  ⟨⟨rfl, by simp [sQueued], by decide⟩, rfl, by simp [sFlight], by decide⟩

theorem witness_StartOpensOrFails :
    ({ base with sched := [.start true] }.sched = [.start true] ∧ { base with sched := [.start true] }.seq = .stopped) ∧
    ({ base with sched := [.start false] }.sched = [.start false] ∧
      { base with sched := [.start false] }.seq = .stopped) ∧
    ((sQueued [.start true]).sched = [.start true] ∧ (sQueued [.start true]).seq ≠ .stopped) := by decide

/-- The message is there, in the given state, and the event is the next. -/
abbrev readable (s : State) (e : Event) (m : Message) (c : Completion) : Prop :=
  s.sched = [e] ∧ memGet s.msgs 0 = some m ∧ m.state = c

theorem witness_EarlyReadsFault :
    (Inv (sQueued [.readRx 0]) ∧ readable (sQueued [.readRx 0]) (.readRx 0) msg .pending) ∧
    (Inv (sQueued [.readResult 0]) ∧ readable (sQueued [.readResult 0]) (.readResult 0) msg .pending) ∧
    (Inv (sEnded .timedOut none .nothing [.readRx 0]) ∧
      readable (sEnded .timedOut none .nothing [.readRx 0]) (.readRx 0) (msgEnded .timedOut none .nothing) .timedOut) ∧
    (Inv (sEnded .transportError none .nothing [.readRx 0]) ∧
      readable (sEnded .transportError none .nothing [.readRx 0]) (.readRx 0) (msgEnded .transportError none .nothing)
        .transportError) :=
  ⟨⟨inv_queued _, by decide⟩, ⟨inv_queued _, by decide⟩,
    ⟨inv_ended _ (by decide) (by decide) (fun _ h => by cases h) (fun _ => rfl), by decide⟩,
    ⟨inv_ended _ (by decide) (by decide) (fun _ h => by cases h) (fun _ => rfl), by decide⟩⟩

theorem witness_EndedMessageReads :
    (Inv (sEnded .timedOut none .nothing [.readResult 0]) ∧
      readable (sEnded .timedOut none .nothing [.readResult 0]) (.readResult 0) (msgEnded .timedOut none .nothing)
        .timedOut) ∧
    (Inv (sEnded .completed (some reply) (.bits [true]) [.readRx 0]) ∧
      readable (sEnded .completed (some reply) (.bits [true]) [.readRx 0]) (.readRx 0)
        (msgEnded .completed (some reply) (.bits [true])) .completed) ∧
    (Inv (sEnded .protocolError (some reply) .nothing [.readRx 0]) ∧
      readable (sEnded .protocolError (some reply) .nothing [.readRx 0]) (.readRx 0)
        (msgEnded .protocolError (some reply) .nothing) .protocolError) :=
  ⟨⟨inv_ended _ (by decide) (by decide) (fun _ h => by cases h) (fun _ => rfl), by decide⟩,
    ⟨inv_ended _ (by decide) (by decide) (fun b h => by cases h; rfl) (fun h => absurd rfl h), by decide⟩,
    ⟨inv_ended _ (by decide) (by decide) (fun b h => by cases h; rfl) (fun _ => rfl), by decide⟩⟩

theorem witness_StateReadClearsSignal :
    memGet { sEnded .transportError none .nothing [.readState 0, .readState 0] with signals := [0] }.msgs 0 =
      some (msgEnded .transportError none .nothing) ∧
    { sEnded .transportError none .nothing [.readState 0, .readState 0] with signals := [0] }.sched =
      [.readState 0, .readState 0] := by decide

theorem witness_StatusIsHardwired : (sFlight [.readStatus]).sched = [.readStatus] ∧
    (sFlight [.writeStatus 3]).sched = [.writeStatus 3] := by decide

theorem witness_EveryStepKeepsInv : Inv (sFlight [.expire]) ∧
    (nextOf (step (sFlight [.expire]))).map State.log = some [(0, .timedOut)] := ⟨inv_flight _, by decide⟩

/-- The next state of a step, where it has one. -/
def stepped (s : State) : State := (nextOf (step s)).getD s

theorem witness_SubmittedOnceInOrder : Inv (sQueued [.sequencer]) ∧ SubmitInv (sQueued [.sequencer]) ∧
    submittedTags (stepped (sQueued [.sequencer])) = [0] :=
  ⟨inv_queued _, ⟨.nil, by simp [submittedTags, sQueued, base, State.reset],
    by simp [submittedTags, sQueued, base, State.reset], by simp [submittedTags, sQueued, base, State.reset],
    by simp [submittedTags, sQueued, base, State.reset]⟩, by decide⟩

theorem witness_MessagesKeepTheirFrames : RequestInv (sQueued [.present (.term apiIdle)]) ∧
    (stepped (sQueued [.present (.term apiIdle)])).q = [0, 1] := by
  refine ⟨fun t m hm => ?_, by decide⟩
  have h : t = 0 ∧ m = msg := by
    simp only [sQueued, memGet] at hm
    split at hm
    · next e => exact ⟨e.symm, by simpa using hm.symm⟩
    · cases hm
  obtain ⟨rfl, rfl⟩ := h
  exact ⟨apiReadBits 5 1, by decide, ⟨by decide, by decide, by decide, by decide, by decide, by decide⟩⟩

/-- The message ends; a new one is accepted; a new entry of the log. -/
theorem witness_MessageEndsOnceAsCurrent :
    (Inv (sFlight [.bus (.ok reply)]) ∧ memGet (sFlight [.bus (.ok reply)]).msgs 0 = some msgArmed ∧
      stateOf (stepped (sFlight [.bus (.ok reply)])) 0 = some .completed ∧
      (stepped (sFlight [.bus (.ok reply)])).log = [(0, .completed)]) ∧
    (Inv (sFlight [.present (.term apiIdle)]) ∧ memGet (sFlight [.present (.term apiIdle)]).msgs 1 = none ∧
      stateOf (stepped (sFlight [.present (.term apiIdle)])) 1 = some .pending) :=
  ⟨⟨inv_flight _, by decide, by decide, by decide⟩, inv_flight _, by decide, by decide⟩

/-- In flight, and the bus held by an orphan. -/
theorem witness_OneMessageInFlight :
    (Inv (sFlight []) ∧ memGet (sFlight []).msgs 0 = some msgArmed ∧ msgArmed.state = .pending ∧
      msgArmed.deadline.isSome = true ∧ (sFlight []).busBusy = true) ∧
    (Inv (sOrphan []) ∧ (sOrphan []).busBusy = true) :=
  ⟨⟨inv_flight _, by decide, by decide, by decide, by decide⟩, inv_orphan _, by decide⟩

theorem witness_FifoOrder : Inv (sQueued [.sequencer]) ∧ (sQueued [.sequencer]).cur ≠ some 0 ∧
    (stepped (sQueued [.sequencer])).cur = some 0 := ⟨inv_queued _, by decide, by decide⟩

theorem witness_ConfigNeverChanges : (nextOf (step (sFlight [.setSpeed 5]))).map State.speed = some 5 := by decide

/-- A step that gives out a tag and one that does not. -/
theorem witness_TagsGivenInOrder :
    (nextOf (step (sFlight [.present (.term apiIdle)]))).map State.nextTag = some 2 ∧
    (nextOf (step (sFlight [.expire]))).map State.nextTag = some 1 := by decide

theorem witness_BlockNeverStops : Inv (sFlight [.bus (.ok reply)]) ∧
    ∀ e rest, (sFlight [.bus (.ok reply)]).sched = e :: rest → isBlockEvent e = true :=
  ⟨inv_flight _, fun e rest h => by
    have : Event.bus (.ok reply) = e := (List.cons.inj h).1
    rw [← this]; rfl⟩

/-- The sequencer and the timer in turn. -/
def turns (n : Nat) : Event := if n % 2 = 0 then .sequencer else .expire

/-- The message dispatched, then ended by the timer; then nothing more to do. -/
def served : Nat → State
  | 0 => sQueued []
  | 1 => stepped (sQueued [.sequencer])
  | _ + 2 => stepped { stepped (sQueued [.sequencer]) with sched := [.expire] }

/-- `turns` and `served` are an endless fair run from Idle, with `stop` 0, on which a message is dispatched. -/
theorem witness_endless_run : EndlessRun turns served ∧ Inv (served 0) ∧ DeadlinesCome served ∧ FairTimer turns served ∧
    FairSequencer turns served ∧ (∀ n, (served n).stop = false) ∧ (served 0).seq ≠ .stopped ∧
    memGet (served 0).msgs 0 = some msg ∧ memGet (served 1).msgs 0 = some msgArmed ∧
    msgArmed.deadline.isSome = true := by
  refine ⟨?_, inv_queued _, .inl rfl, ?_, ?_, ?_, by decide, by decide, by decide, by decide⟩
  · rintro (_ | _ | n)
    · rfl
    · rfl
    · show step (feed (if (n + 2) % 2 = 0 then .sequencer else .expire) _) = _
      split <;> rfl
  · exact fun n h => absurd (h (n + 2) (by omega)) (show ¬ expiryEnabled (served 2) = true by decide)
  · exact fun n h => absurd (h (n + 2) (by omega)) (show ¬ sequencerEnabled (served 2) = true by decide)
  · rintro (_ | _ | n) <;> rfl

theorem witness_QueueDrainsByTimeouts : Inv (sQueued [.sequencer, .expire]) ∧
    (sQueued [.sequencer, .expire]).cfg.timed = false ∧ (sQueued [.sequencer, .expire]).stop = false ∧
    (sQueued [.sequencer, .expire]).seq = .idle ∧
    (sQueued [.sequencer, .expire]).sched =
      (List.replicate (sQueued [.sequencer, .expire]).q.length [Event.sequencer, Event.expire]).flatten :=
  ⟨inv_queued _, rfl, rfl, rfl, rfl⟩

/-- A failed Start answered before, and the state stopped: the retry goes on. -/
theorem test_attach_retry : (nextOf (step { base with out := [Output.deviceUnavailable], sched := [.start true] })).map
      (fun s => attachNext (fun _ => 1) true (.started 1) s) =
    some (.waiting 0, some (.present (.term versionRead))) := by decide

/-- A Start that opens, one that does not, and the three ends of the version read that the host can find. -/
theorem witness_AttachSequence : base.seq = .stopped ∧ (sQueued []).seq ≠ .stopped ∧
    memGet (sFlight []).msgs 0 = some msgArmed ∧ msgArmed.state = .pending ∧
    (msgEnded .completed (some reply) (.registers [1])).state = .completed ∧
    (msgEnded .completed (some reply) (.registers [1])).result = .registers [1] ∧
    (msgEnded .timedOut none .nothing).state = .timedOut ∧
    memGet (sEnded .completed (some reply) (.registers [1]) []).msgs 0 =
      some (msgEnded .completed (some reply) (.registers [1])) ∧
    memGet (sEnded .timedOut none .nothing []).msgs 0 = some (msgEnded .timedOut none .nothing) := by decide

/-- Two instances on two devices. -/
def twoNodes : System := [⟨0, 7, sFlight [.expire]⟩, ⟨2, 8, sQueued []⟩]

theorem witness_InstancesAreIndependent : twoNodes.blockOf 0 = some (sFlight [.expire]) ∧
    systemStep 0 twoNodes = .next (twoNodes.setBlock 0 (stepped (sFlight [.expire]))) := ⟨rfl, rfl⟩

theorem witness_SharedDeviceRefused :
    ¬ (([⟨0, 7, base⟩, ⟨1, 7, base⟩] : System).map Node.device).Nodup := by decide

end Sys2Proof.Tests
end

section
/-! What a step does to the tag counter, the answers, the log and the configuration: the two effects a step can have on them, one rule
per operation and per agent's step, and the statements on the reset values and on the tags. -/

namespace Sys2Proof.Machine

/-! The two effects. -/

/-- From `s` to `s'` no tag is given out: the counter stands, the answers added are no acceptances, and the log only grows. -/
structure NoTagGiven (s s' : State) : Prop where
  cfg : s'.cfg = s.cfg
  nextTag : s'.nextTag = s.nextTag
  out : ∃ os, s'.out = s.out ++ os ∧ ∀ t, Output.accepted t ∉ os
  log : s.log <+: s'.log

/-- From `s` to `s'` the tag `s.nextTag` is given out (43_sequencer R127). -/
structure TagGiven (s s' : State) : Prop where
  cfg : s'.cfg = s.cfg
  nextTag : s'.nextTag = s.nextTag + 1
  out : s'.out = s.out ++ [.accepted s.nextTag]
  q : s'.q = s.q ++ [s.nextTag]
  log : s'.log = s.log

/-- A step gives out one tag or none (10_state R23). -/
def TagEffect (s s' : State) : Prop := NoTagGiven s s' ∨ TagGiven s s'

namespace NoTagGiven

/-- A change outside the configuration, the counter, the answers and the log gives out no tag. -/
theorem of_eq {s s' : State} (hcfg : s'.cfg = s.cfg) (htag : s'.nextTag = s.nextTag) (hout : s'.out = s.out)
    (hlog : s'.log = s.log) : NoTagGiven s s' :=
  ⟨hcfg, htag, ⟨[], by simp [hout]⟩, ⟨[], by simp [hlog]⟩⟩

/-- One more answer, which is no acceptance, gives out no tag. -/
theorem of_answer {s s' : State} (o : Output) (ho : ∀ t, o ≠ .accepted t) (hcfg : s'.cfg = s.cfg)
    (htag : s'.nextTag = s.nextTag) (hout : s'.out = s.out ++ [o]) (hlog : s.log <+: s'.log) : NoTagGiven s s' :=
  ⟨hcfg, htag, ⟨[o], hout, fun t ht => ho t (List.mem_singleton.mp ht).symm⟩, hlog⟩

theorem refl (s : State) : NoTagGiven s s := of_eq rfl rfl rfl rfl

theorem trans {s r s' : State} (h : NoTagGiven s r) (h' : NoTagGiven r s') : NoTagGiven s s' := by
  obtain ⟨os, hout, hos⟩ := h.out
  obtain ⟨os', hout', hos'⟩ := h'.out
  refine ⟨h'.cfg.trans h.cfg, h'.nextTag.trans h.nextTag, ⟨os ++ os', ?_, fun t ht => ?_⟩, h.log.trans h'.log⟩
  · rw [hout', hout, List.append_assoc]
  · exact (List.mem_append.mp ht).elim (hos t) (hos' t)

/-! The operations of the block, all but acceptance. -/

theorem emit {o : Output} (ho : ∀ t, o ≠ .accepted t) (s : State) : NoTagGiven s (s.emit o) :=
  of_answer o ho rfl rfl rfl List.prefix_rfl

theorem reject (k : RejectKind) (s : State) : NoTagGiven s (s.reject k) := emit (by nofun) s

theorem hold (i : Instr) (s : State) : NoTagGiven s (s.hold i) := of_eq rfl rfl rfl rfl

theorem takeHead (t : Nat) (rest : List Nat) (m : Message) (s : State) : NoTagGiven s (s.takeHead t rest m) :=
  of_eq rfl rfl rfl rfl

theorem awaitBus (s : State) : NoTagGiven s s.awaitBus := of_eq rfl rfl rfl rfl

theorem scheduleNext (e : Event) (s : State) : NoTagGiven s (s.scheduleNext e) := of_eq rfl rfl rfl rfl

theorem submit (t : Nat) (m : Message) (s : State) : NoTagGiven s (s.submit t m) :=
  of_answer (.submitted t (submissionOf m s)) nofun rfl rfl rfl List.prefix_rfl

theorem releaseBus (s : State) : NoTagGiven s s.releaseBus := of_eq rfl rfl rfl rfl

theorem discardOrphan (s : State) : NoTagGiven s s.discardOrphan := of_eq rfl rfl rfl rfl

theorem finish (t : Nat) (m : Message) (c : Completion) (s : State) : NoTagGiven s (s.finish t m c) :=
  of_answer (.completion t c) nofun rfl rfl rfl (List.prefix_append ..)

theorem expireMessage (t : Nat) (m : Message) (s : State) : NoTagGiven s (expireMessage t m s) :=
  of_answer (.completion t .timedOut) nofun rfl rfl rfl (List.prefix_append ..)

theorem answerCurrent (t : Nat) (m : Message) (a : BusAnswer) (s : State) : NoTagGiven s (answerCurrent t m a s) := by
  cases a with
  | fail => exact (releaseBus s).trans (finish ..)
  | ok bytes => exact (releaseBus s).trans (finish ..)

end NoTagGiven

theorem tagGiven_accept (i : Instr) (tx : List Byte) (segs : List Descriptor) (s : State) :
    TagGiven s (s.accept i tx segs) :=
  ⟨rfl, rfl, rfl, rfl, rfl⟩

/-- The schedule and the held producers have no part in the effect. -/
theorem TagEffect.of_sched_blocked {s s' : State} {es : List Event} {held : List Instr}
    (h : TagEffect { s with sched := es, blocked := held } s') : TagEffect s s' := by
  rcases h with h | h
  · exact .inl ⟨h.cfg, h.nextTag, h.out, h.log⟩
  · exact .inr ⟨h.cfg, h.nextTag, h.out, h.q, h.log⟩

/-! The agents' steps. Only a producer's, through `exec`, may give out a tag. -/

theorem exec_tagEffect {i : Instr} {s s' : State} (h : exec i s = .next s') : TagEffect s s' := by
  rcases exec_cases h with ⟨k, rfl⟩ | ⟨_, _, rfl⟩ | ⟨_, _, tx, segs, rfl⟩
  · exact .inl (.reject k s)
  · exact .inl (.hold i s)
  · exact .inr (tagGiven_accept i tx segs s)

theorem presentStep_tagEffect {p : Presented} {s s' : State} (h : presentStep p s = .next s') : TagEffect s s' := by
  obtain ⟨i, _, hi⟩ := presentStep_cases h
  exact exec_tagEffect hi

theorem resumeStep_tagEffect {k : Nat} {s s' : State} (h : resumeStep k s = .next s') : TagEffect s s' := by
  rcases resumeStep_cases h with rfl | ⟨i, _, _, hi⟩
  · exact .inl (.refl _)
  · exact (exec_tagEffect hi).of_sched_blocked

theorem sequencerStep_noTagGiven {s s' : State} (h : sequencerStep s = .next s') : NoTagGiven s s' := by
  rcases sequencerStep_cases h with
    rfl | ⟨_, _, rfl⟩ | ⟨_, _, t, rest, m, _, _, ⟨_, rfl⟩ | ⟨_, rfl⟩⟩ | ⟨_, _, t, m, _, _, rfl⟩
  · exact .refl _
  · exact .of_eq rfl rfl rfl rfl
  · exact (NoTagGiven.takeHead t rest _ s).trans (.awaitBus _)
  · exact (NoTagGiven.takeHead t rest _ s).trans (.submit ..)
  · exact .submit t m s

theorem busStep_noTagGiven {a : BusAnswer} {s s' : State} (h : busStep a s = .next s') : NoTagGiven s s' := by
  rcases busStep_cases h with
    rfl | ⟨_, _, _, rfl⟩ | ⟨_, _, _, _, t, m, _, _, ⟨_, _, rfl⟩ | ⟨_, rfl⟩⟩
  · exact .refl _
  · exact .discardOrphan s
  · exact (NoTagGiven.expireMessage t m s).trans (.scheduleNext ..)
  · exact .answerCurrent t m a s

theorem expireStep_noTagGiven {s s' : State} (h : expireStep s = .next s') : NoTagGiven s s' := by
  rcases expireStep_cases h with rfl | ⟨t, m, _, _, _, _, rfl⟩
  · exact .refl _
  · exact .expireMessage t m s

theorem tickStep_noTagGiven {micros : Nat} {s s' : State} (h : tickStep micros s = .next s') : NoTagGiven s s' := by
  rcases tickStep_cases h with rfl | ⟨_, _, rfl⟩
  · exact .refl _
  · exact .of_eq rfl rfl rfl rfl

theorem setSpeedStep_noTagGiven {hz : Nat} {s s' : State} (h : setSpeedStep hz s = .next s') : NoTagGiven s s' := by
  rcases setSpeedStep_cases h with ⟨_, rfl⟩ | rfl
  · exact .of_eq rfl rfl rfl rfl
  · exact .emit (by nofun) s

theorem shutdownStep_noTagGiven {s s' : State} (h : shutdownStep s = .next s') : NoTagGiven s s' := by
  obtain rfl := outcome_next_inj.mp h
  exact .of_eq rfl rfl rfl rfl

theorem startStep_noTagGiven {opens : Bool} {s s' : State} (h : startStep opens s = .next s') : NoTagGiven s s' := by
  rcases startStep_cases h with ⟨_, rfl⟩ | rfl | rfl
  · exact .of_eq rfl rfl rfl rfl
  · exact .emit (by nofun) s
  · exact .refl _

theorem readStatusStep_noTagGiven {s s' : State} (h : readStatusStep s = .next s') : NoTagGiven s s' := by
  obtain rfl := outcome_next_inj.mp h
  exact .emit (by nofun) s

theorem writeStatusStep_noTagGiven {value : Nat} {s s' : State} (h : writeStatusStep value s = .next s') :
    NoTagGiven s s' := by
  obtain rfl := outcome_next_inj.mp h
  exact .refl _

theorem readStateStep_noTagGiven {t : Nat} {s s' : State} (h : readStateStep t s = .next s') : NoTagGiven s s' := by
  obtain ⟨m, _, rfl⟩ := readStateStep_cases h
  exact (NoTagGiven.emit (by nofun) s).trans (.of_eq rfl rfl rfl rfl)

theorem readRxStep_noTagGiven {t : Nat} {s s' : State} (h : readRxStep t s = .next s') : NoTagGiven s s' := by
  obtain ⟨m, bytes, _, _, _, rfl⟩ := readRxStep_cases h
  exact .emit (by nofun) s

theorem readResultStep_noTagGiven {t : Nat} {s s' : State} (h : readResultStep t s = .next s') : NoTagGiven s s' := by
  obtain ⟨m, _, _, rfl⟩ := readResultStep_cases h
  exact .emit (by nofun) s

theorem eventStep_tagEffect {e : Event} {s s' : State} (h : eventStep e s = .next s') : TagEffect s s' := by
  cases e with
  | present p => exact presentStep_tagEffect h
  | resume k => exact resumeStep_tagEffect h
  | sequencer => exact .inl (sequencerStep_noTagGiven h)
  | bus a => exact .inl (busStep_noTagGiven h)
  | expire => exact .inl (expireStep_noTagGiven h)
  | tick micros => exact .inl (tickStep_noTagGiven h)
  | setSpeed hz => exact .inl (setSpeedStep_noTagGiven h)
  | shutdown => exact .inl (shutdownStep_noTagGiven h)
  | start opens => exact .inl (startStep_noTagGiven h)
  | readStatus => exact .inl (readStatusStep_noTagGiven h)
  | writeStatus value => exact .inl (writeStatusStep_noTagGiven (value := value) h)
  | readState t => exact .inl (readStateStep_noTagGiven h)
  | readRx t => exact .inl (readRxStep_noTagGiven h)
  | readResult t => exact .inl (readResultStep_noTagGiven h)

/-- Every step of the machine gives out one tag or none. -/
theorem step_tagEffect {s s' : State} (h : step s = .next s') : TagEffect s s' := by
  rcases step_cases h with ⟨e, rest, _, he⟩ | ⟨_, hseq | hres⟩
  · exact (eventStep_tagEffect he).of_sched_blocked
  · exact .inl (sequencerStep_noTagGiven hseq)
  · exact resumeStep_tagEffect hres

/-- No step writes the configuration (70_reset R187). -/
theorem step_cfg {s s' : State} (h : step s = .next s') : s'.cfg = s.cfg := by
  rcases step_tagEffect h with h | h
  · exact h.cfg
  · exact h.cfg

/-- Settles O46: the reset values are read off the reset state, and no step writes the configuration. -/
theorem resetValues : Obligations.ResetValues :=
  ⟨rfl, rfl, rfl, rfl, rfl, rfl, rfl, rfl, rfl, rfl, fun _ _ => step_cfg⟩

/-- Settles O55, from the two effects a step can have on the tags. -/
theorem tagsGivenInOrder : Obligations.TagsGivenInOrder := by
  refine ⟨rfl, fun s s' h => ?_⟩
  rcases step_tagEffect h with hno | htag
  · obtain ⟨os, hout, hos⟩ := hno.out
    refine ⟨hout ▸ List.prefix_append .., hno.log, .inl ⟨hno.nextTag, ?_⟩⟩
    rw [hout, List.drop_left]
    exact hos
  · exact ⟨htag.out ▸ List.prefix_append .., htag.log ▸ List.prefix_rfl, .inr ⟨htag.nextTag, htag.out, htag.q⟩⟩

end Sys2Proof.Machine
end

section
/-! PROOFS. The three undocumented opcodes and the sentinel Invalid: no construction of any of them is accepted (41_framing R104 to
R106, R108). -/

namespace Sys2Proof.Machine

/-! What `exec` does with each: the rejection, whatever the operands. -/

theorem exec_writeCharacter (c : Construction) (s : State) :
    exec (.writeCharacter c) s = .next (s.reject .requestUnsupported) := rfl

theorem exec_writeString (c : Construction) (s : State) :
    exec (.writeString c) s = .next (s.reject .requestUnsupported) := rfl

theorem exec_readString (c : Construction) (s : State) :
    exec (.readString c) s = .next (s.reject .requestUnsupported) := rfl

theorem exec_invalid (c : Construction) (s : State) :
    exec (.invalid c) s = .next (s.reject .requestUnsupported) := rfl

/-- A rejection adds the answer and keeps every other field (60_exceptions R165). -/
theorem State.reject_eq (k : RejectKind) (s : State) :
    s.reject k = { s with out := s.out ++ [.rejected k] } := rfl

/-! Invalid is never on the wire. -/

theorem opcodeByte_invalid (o : Opcodes) : opcodeByte o .invalid = none := rfl

theorem encode_invalid (cfg : Config) (c : Construction) : encode cfg (.invalid c) = [] := rfl

/-- Settles O17: each of the four is the rejection, read as a record update; Invalid has neither an opcode byte nor words. -/
theorem unsupportedOpcodesRejected : Obligations.UnsupportedOpcodesRejected := by
  refine ⟨fun c s => ?_, opcodeByte_invalid, encode_invalid⟩
  rw [exec_writeCharacter, exec_writeString, exec_readString, exec_invalid, State.reject_eq]
  exact ⟨rfl, rfl, rfl, rfl⟩

end Sys2Proof.Machine
end

section
/-! PROOFS. Submissions in acceptance order, none twice (20_memory R53 b, 43_sequencer R143). Only the sequencer submits; what it submits
is the head of the queue or the waiting message, and the invariant of the block puts both after every tag submitted before. Every other
step keeps the tags submitted, adds at most the next tag to the queue, and makes no message current. -/

namespace Sys2Proof.Safety

open Sys2Proof.Machine

/-! The tags submitted, read off the answers. -/

/-- An answer that is no submission leaves the tags submitted as they were. -/
theorem submittedTags_of_answer {s s' : State} {o : Output} (hout : s'.out = s.out ++ [o])
    (ho : submittedTag o = none) : submittedTags s' = submittedTags s := by
  simp [submittedTags, hout, ho]

@[simp] theorem submittedTags_submit (t : Nat) (m : Message) (s : State) :
    submittedTags (s.submit t m) = submittedTags s ++ [t] := by
  simp [submittedTags, submittedTag]

/-! What the invariant of the block says of the tags still to be submitted. -/

/-- A tag with a record has been given out (10_state R23). -/
theorem Inv.queued_lt_nextTag {s : State} (hinv : Inv s) {t : Nat} (ht : t ∈ s.q) : t < s.nextTag := by
  obtain ⟨m, hm, _⟩ := hinv.queue.queued t ht
  exact hinv.store.below t m hm

theorem Inv.cur_lt_nextTag {s : State} (hinv : Inv s) {t : Nat} (ht : s.cur = some t) : t < s.nextTag := by
  obtain ⟨m, hm, _⟩ := hinv.queue.current t ht
  exact hinv.store.below t m hm

/-- The head of the queue is the least tag in it (43_sequencer R141). -/
theorem Inv.head_lt_of_mem_rest {s : State} (hinv : Inv s) {t u : Nat} {rest : List Nat} (hq : s.q = t :: rest)
    (hu : u ∈ rest) : t < u :=
  List.rel_of_pairwise_cons (hq ▸ hinv.queue.sorted) hu

/-- The invariant does not look at the schedule and the held producers. -/
theorem Inv.with_sched_blocked {s : State} (hinv : Inv s) (es : List Event) (held : List Instr) :
    Inv { s with sched := es, blocked := held } :=
  ⟨{ hinv.store with }, { hinv.records with }, { hinv.queue with }, { hinv.logged with }, { hinv.bus with }, hinv.speed⟩

/-- The order of submissions does not look at the schedule and the held producers either. -/
theorem SubmitInv.with_sched_blocked {s : State} (hsub : SubmitInv s) (es : List Event) (held : List Instr) :
    SubmitInv { s with sched := es, blocked := held } :=
  { hsub with }

/-! The steps that submit nothing. -/

/-- From `s` to `s'` nothing is submitted, the queue gains at most new tags, and no message becomes current or moves on. -/
structure SubmissionsKept (s s' : State) : Prop where
  tags : submittedTags s' = submittedTags s
  queue : ∀ u, u ∈ s'.q → u ∈ s.q ∨ u = s.nextTag
  served : ∀ u, s'.cur = some u → serving s' → s.cur = some u ∧ s'.seq = s.seq
  nextTag : s.nextTag ≤ s'.nextTag

/-- A step that submits nothing keeps the order: a tag it adds to the queue is above all submitted before. -/
theorem SubmitInv.of_submissionsKept {s s' : State} (hsub : SubmitInv s) (hkept : SubmissionsKept s s') :
    SubmitInv s' where
  increasing := hkept.tags ▸ hsub.increasing
  beforeQueue := by
    intro t u ht hu
    rw [hkept.tags] at ht
    rcases hkept.queue u hu with hold | hnew
    · exact hsub.beforeQueue t u ht hold
    · exact hnew ▸ hsub.accepted t ht
  waiting := by
    intro t u ht hcur hseq
    rw [hkept.tags] at ht
    obtain ⟨hcur, hsame⟩ := hkept.served u hcur (.inl hseq)
    exact hsub.waiting t u ht hcur (hsame ▸ hseq)
  inFlight := by
    intro t u ht hcur hseq
    rw [hkept.tags] at ht
    obtain ⟨hcur, hsame⟩ := hkept.served u hcur (.inr hseq)
    exact hsub.inFlight t u ht hcur (hsame ▸ hseq)
  accepted := by
    intro t ht
    rw [hkept.tags] at ht
    exact (hsub.accepted t ht).trans_le hkept.nextTag

namespace SubmissionsKept

/-- The sequencer's registers and the queue stay as they are. -/
theorem of_eq {s s' : State} (htags : submittedTags s' = submittedTags s) (hq : s'.q = s.q) (hcur : s'.cur = s.cur)
    (hseq : s'.seq = s.seq) (htag : s'.nextTag = s.nextTag) : SubmissionsKept s s' :=
  ⟨htags, fun _ hu => .inl (hq ▸ hu), fun _ hu _ => ⟨hcur ▸ hu, hseq⟩, htag.ge⟩

/-- The sequencer serves no message afterwards. -/
theorem of_not_serving {s s' : State} (htags : submittedTags s' = submittedTags s) (hq : s'.q = s.q)
    (hidle : ¬ serving s') (htag : s'.nextTag = s.nextTag) : SubmissionsKept s s' :=
  ⟨htags, fun _ hu => .inl (hq ▸ hu), fun _ _ hserving => absurd hserving hidle, htag.ge⟩

/-- The current message ends, by whatever verdict (60_exceptions R175). -/
theorem of_finished {s s' : State} {t : Nat} {c : Completion} (hout : s'.out = s.out ++ [.completion t c])
    (hq : s'.q = s.q) (hcur : s'.cur = none) (htag : s'.nextTag = s.nextTag) : SubmissionsKept s s' :=
  ⟨submittedTags_of_answer hout rfl, fun _ hu => .inl (hq ▸ hu), fun _ hu => by simp [hcur] at hu, htag.ge⟩

theorem refl (s : State) : SubmissionsKept s s := of_eq rfl rfl rfl rfl rfl

theorem emit {o : Output} (ho : submittedTag o = none) (s : State) : SubmissionsKept s (s.emit o) :=
  of_eq (submittedTags_of_answer rfl ho) rfl rfl rfl rfl

/-- Acceptance puts the next tag at the queue's tail (43_sequencer R127). -/
theorem accept (i : Instr) (tx : List Byte) (segs : List Descriptor) (s : State) :
    SubmissionsKept s (s.accept i tx segs) where
  tags := submittedTags_of_answer (o := .accepted s.nextTag) rfl rfl
  queue u hu := by simpa using hu
  served _ hcur _ := ⟨hcur, rfl⟩
  nextTag := Nat.le_succ _

/-- The schedule and the held producers have no part in it. -/
theorem of_sched_blocked {s s' : State} {es : List Event} {held : List Instr}
    (h : SubmissionsKept { s with sched := es, blocked := held } s') : SubmissionsKept s s' :=
  { h with }

end SubmissionsKept

theorem exec_submissionsKept {i : Instr} {s s' : State} (h : exec i s = .next s') : SubmissionsKept s s' := by
  rcases exec_cases h with ⟨k, rfl⟩ | ⟨_, _, rfl⟩ | ⟨_, _, tx, segs, rfl⟩
  · exact .emit rfl s
  · exact .of_eq rfl rfl rfl rfl rfl
  · exact .accept i tx segs s

theorem presentStep_submissionsKept {p : Presented} {s s' : State} (h : presentStep p s = .next s') :
    SubmissionsKept s s' := by
  obtain ⟨i, _, hi⟩ := presentStep_cases h
  exact exec_submissionsKept hi

theorem resumeStep_submissionsKept {k : Nat} {s s' : State} (h : resumeStep k s = .next s') :
    SubmissionsKept s s' := by
  rcases resumeStep_cases h with rfl | ⟨i, _, _, hi⟩
  · exact .refl _
  · exact (exec_submissionsKept hi).of_sched_blocked

theorem busStep_submissionsKept {a : BusAnswer} {s s' : State} (h : busStep a s = .next s') :
    SubmissionsKept s s' := by
  rcases busStep_cases h with rfl | ⟨_, _, _, rfl⟩ | ⟨_, _, _, _, t, m, _, _, ⟨_, _, rfl⟩ | ⟨_, rfl⟩⟩
  · exact .refl _
  · exact .of_eq rfl rfl rfl rfl rfl
  · exact .of_finished (t := t) (c := .timedOut) rfl rfl rfl rfl
  · cases a with
    | fail => exact .of_finished (t := t) (c := .transportError) rfl rfl rfl rfl
    | ok bytes => exact .of_finished (t := t) (c := (validate s.cfg m.op m.addr m.count bytes).1) rfl rfl rfl rfl

theorem expireStep_submissionsKept {s s' : State} (h : expireStep s = .next s') : SubmissionsKept s s' := by
  rcases expireStep_cases h with rfl | ⟨t, m, _, _, _, _, rfl⟩
  · exact .refl _
  · exact .of_finished (t := t) (c := .timedOut) rfl rfl rfl rfl

theorem tickStep_submissionsKept {micros : Nat} {s s' : State} (h : tickStep micros s = .next s') :
    SubmissionsKept s s' := by
  rcases tickStep_cases h with rfl | ⟨_, _, rfl⟩
  · exact .refl _
  · exact .of_eq rfl rfl rfl rfl rfl

theorem setSpeedStep_submissionsKept {hz : Nat} {s s' : State} (h : setSpeedStep hz s = .next s') :
    SubmissionsKept s s' := by
  rcases setSpeedStep_cases h with ⟨_, rfl⟩ | rfl
  · exact .of_eq rfl rfl rfl rfl rfl
  · exact .emit rfl s

theorem shutdownStep_submissionsKept {s s' : State} (h : shutdownStep s = .next s') : SubmissionsKept s s' := by
  obtain rfl := outcome_next_inj.mp h
  exact .of_eq rfl rfl rfl rfl rfl

theorem startStep_submissionsKept {opens : Bool} {s s' : State} (h : startStep opens s = .next s') :
    SubmissionsKept s s' := by
  rcases startStep_cases h with ⟨_, rfl⟩ | rfl | rfl
  · exact .of_not_serving rfl rfl (by simp) rfl
  · exact .emit rfl s
  · exact .refl _

theorem readStatusStep_submissionsKept {s s' : State} (h : readStatusStep s = .next s') :
    SubmissionsKept s s' := by
  obtain rfl := outcome_next_inj.mp h
  exact .emit rfl s

theorem writeStatusStep_submissionsKept {value : Nat} {s s' : State} (h : writeStatusStep value s = .next s') :
    SubmissionsKept s s' := by
  obtain rfl := outcome_next_inj.mp h
  exact .refl _

theorem readStateStep_submissionsKept {t : Nat} {s s' : State} (h : readStateStep t s = .next s') :
    SubmissionsKept s s' := by
  obtain ⟨m, _, rfl⟩ := readStateStep_cases h
  exact .of_eq (submittedTags_of_answer (o := .messageState t m.state) rfl rfl) rfl rfl rfl rfl

theorem readRxStep_submissionsKept {t : Nat} {s s' : State} (h : readRxStep t s = .next s') :
    SubmissionsKept s s' := by
  obtain ⟨m, bytes, _, _, _, rfl⟩ := readRxStep_cases h
  exact .emit rfl s

theorem readResultStep_submissionsKept {t : Nat} {s s' : State} (h : readResultStep t s = .next s') :
    SubmissionsKept s s' := by
  obtain ⟨m, _, _, rfl⟩ := readResultStep_cases h
  exact .emit rfl s

/-- Every agent but the sequencer submits nothing. -/
theorem eventStep_submissionsKept {e : Event} {s s' : State} (he : e ≠ .sequencer) (h : eventStep e s = .next s') :
    SubmissionsKept s s' := by
  cases e with
  | present p => exact presentStep_submissionsKept h
  | resume k => exact resumeStep_submissionsKept h
  | sequencer => exact absurd rfl he
  | bus a => exact busStep_submissionsKept h
  | expire => exact expireStep_submissionsKept h
  | tick micros => exact tickStep_submissionsKept h
  | setSpeed hz => exact setSpeedStep_submissionsKept h
  | shutdown => exact shutdownStep_submissionsKept h
  | start opens => exact startStep_submissionsKept h
  | readStatus => exact readStatusStep_submissionsKept h
  | writeStatus value => exact writeStatusStep_submissionsKept (value := value) h
  | readState t => exact readStateStep_submissionsKept h
  | readRx t => exact readRxStep_submissionsKept h
  | readResult t => exact readResultStep_submissionsKept h

/-! The sequencer's step. -/

/-- The head of the queue, once it waits for the bus, stands after every tag submitted (43_sequencer R130). -/
theorem SubmitInv.takeHead_awaitBus {s : State} (hsub : SubmitInv s) {t : Nat} {rest : List Nat}
    (hq : s.q = t :: rest) (m : Message) : SubmitInv (s.takeHead t rest m).awaitBus where
  increasing := hsub.increasing
  beforeQueue u v hu hv := hsub.beforeQueue u v hu (hq ▸ List.mem_cons_of_mem t hv)
  waiting u v hu hcur _ := by
    obtain rfl : t = v := Option.some.inj hcur
    exact hsub.beforeQueue u t hu (hq ▸ List.mem_cons_self)
  inFlight _ _ _ _ hseq := by simp at hseq
  accepted := hsub.accepted

/-- The waiting message may be submitted: it stands after the tags submitted and before the queue (43_sequencer R131). -/
theorem SubmitInv.submit {s : State} (hsub : SubmitInv s) {t : Nat} (hcur : s.cur = some t) (hseq : s.seq = .waitBus)
    (hfirst : ∀ u, u ∈ s.q → t < u) (hgiven : t < s.nextTag) (m : Message) : SubmitInv (s.submit t m) := by
  have hlast : ∀ u, u ∈ submittedTags s → u < t := fun u hu => hsub.waiting u t hu hcur hseq
  have hmem : ∀ u, u ∈ submittedTags (s.submit t m) → u ∈ submittedTags s ∨ u = t := by simp
  constructor
  case increasing =>
    rw [submittedTags_submit]
    exact List.pairwise_append.mpr ⟨hsub.increasing, List.pairwise_singleton .., by simpa using hlast⟩
  case beforeQueue =>
    intro u v hu hv
    rcases hmem u hu with hu | rfl
    · exact hsub.beforeQueue u v hu hv
    · exact hfirst v hv
  case waiting => intro _ _ _ _ hwait; simp at hwait
  case inFlight =>
    intro u v hu hv _
    obtain rfl : t = v := Option.some.inj (hcur.symm.trans hv)
    rcases hmem u hu with hu | rfl
    · exact (hlast u hu).le
    · exact le_rfl
  case accepted =>
    intro u hu
    rcases hmem u hu with hu | rfl
    · exact hsub.accepted u hu
    · exact hgiven

/-- A submission at dispatch is the wait for a free bus and the submission that ends it, in one step. -/
theorem takeHead_submit_eq (t : Nat) (rest : List Nat) (m : Message) (s : State) :
    (s.takeHead t rest m).submit t m = ((s.takeHead t rest m).awaitBus).submit t m := rfl

theorem sequencerStep_submitInv {s s' : State} (hinv : Inv s) (hsub : SubmitInv s) (h : sequencerStep s = .next s') :
    SubmitInv s' := by
  rcases sequencerStep_cases h with
    rfl | ⟨_, _, rfl⟩ | ⟨_, _, t, rest, m, hq, _, ⟨_, rfl⟩ | ⟨_, rfl⟩⟩ | ⟨hseq, _, t, m, hcur, _, rfl⟩
  · exact hsub
  · exact hsub.of_submissionsKept (.of_not_serving rfl rfl (by simp) rfl)
  · exact hsub.takeHead_awaitBus hq _
  · rw [takeHead_submit_eq]
    exact (hsub.takeHead_awaitBus hq _).submit rfl rfl (fun _ hu => hinv.head_lt_of_mem_rest hq hu)
      (hinv.queued_lt_nextTag (hq ▸ List.mem_cons_self)) _
  · exact hsub.submit hcur hseq (fun u hu => hinv.queue.curFirst t u hcur hu) (hinv.cur_lt_nextTag hcur) m

theorem eventStep_submitInv {e : Event} {s s' : State} (hinv : Inv s) (hsub : SubmitInv s)
    (h : eventStep e s = .next s') : SubmitInv s' := by
  by_cases he : e = .sequencer
  · subst he
    exact sequencerStep_submitInv hinv hsub h
  · exact hsub.of_submissionsKept (eventStep_submissionsKept he h)

/-- Settles O49: the sequencer submits a tag above all submitted before, and every other step submits nothing. -/
theorem submittedOnceInOrder : Obligations.SubmittedOnceInOrder := by
  intro s s' hinv hsub h
  rcases step_cases h with ⟨e, rest, _, he⟩ | ⟨_, hseq | hres⟩
  · exact eventStep_submitInv (hinv.with_sched_blocked rest s.blocked) (hsub.with_sched_blocked rest s.blocked) he
  · exact sequencerStep_submitInv hinv hsub hseq
  · exact hsub.of_submissionsKept (resumeStep_submissionsKept hres)

end Sys2Proof.Safety
end

section
/-! PROOFS. How the bus's answer, the deadline and SetSpeed change the block (43_sequencer R129, R133 to R139, R145): an equation per
case of each agent's step, and the statements read off them. -/

namespace Sys2Proof.Machine

/-! The bus's answer. -/

/-- The bus may answer `Fail` always, and `Ok` with as many bytes as the outstanding frame (43_sequencer R129). -/
theorem answerFits_iff {s : State} {sub : Submission} {a : BusAnswer} (hbus : s.bus = some sub) :
    answerFits s a = true ↔ ∀ bytes, a = .ok bytes → bytes.length = sub.tx.length := by
  cases a with
  | fail => simp [answerFits, hbus]
  | ok bytes => simp [answerFits, hbus]

/-- The answer to an orphaned transfer is discarded (43_sequencer R139). -/
theorem busStep_of_orphan {s : State} {a : BusAnswer} {t : Nat} (hbusy : s.busBusy = true)
    (hfits : answerFits s a = true) (horphan : s.orphan = some t) : busStep a s = .next s.discardOrphan := by
  simp [busStep, hbusy, hfits, horphan]

/-- The answer to the transfer in flight, its deadline not reached, is the current message's (43_sequencer R133, R134). -/
theorem busStep_of_inFlight {s : State} {a : BusAnswer} {t : Nat} {m : Message} (hbusy : s.busBusy = true)
    (hfits : answerFits s a = true) (horphan : s.orphan = none) (hseq : s.seq = .inFlight) (hcur : s.cur = some t)
    (hm : memGet s.msgs t = some m) (hearly : (s.cfg.timed && deadlineReached s m) = false) :
    busStep a s = .next (answerCurrent t m a s) := by
  simp only [busStep, hbusy, hfits, horphan, hseq, hcur, hm, hearly, Bool.and_self, Bool.false_eq_true, ↓reduceIte]

/-- An `Ok` answer ends the message by the validator's verdict, with the bytes and the result it selects (43_sequencer R134). -/
theorem answerCurrent_ok {t : Nat} {m : Message} {bytes : List Byte} {s : State} {c : Completion} {r : ReadResult}
    (hverdict : validate s.cfg m.op m.addr m.count bytes = (c, r)) :
    answerCurrent t m (.ok bytes) s = s.releaseBus.finish t { m with rx := some bytes, result := r } c := by
  simp only [answerCurrent, received, hverdict]

/-- Settles O30, by the answer to the transfer in flight. -/
theorem failAnswerEndsMessage : Obligations.FailAnswerEndsMessage := by
  intro s rest t m sub hsched hbusy hbus horphan hseq hcur hm hearly
  have hfits : answerFits s .fail = true := (answerFits_iff hbus).mpr nofun
  exact (step_of_sched hsched).trans (busStep_of_inFlight hbusy hfits horphan hseq hcur hm hearly)

/-- Settles O31, by the answer to the transfer in flight. -/
theorem okAnswerEndsMessage : Obligations.OkAnswerEndsMessage := by
  intro s rest t m sub bytes c r hsched hbusy hbus hlen horphan hseq hcur hm hearly hverdict
  have hfits : answerFits s (.ok bytes) = true :=
    (answerFits_iff hbus).mpr fun _ hbytes => BusAnswer.ok.inj hbytes ▸ hlen
  have hstep : step s = .next (answerCurrent t m (.ok bytes) { s with sched := rest }) :=
    (step_of_sched hsched).trans (busStep_of_inFlight hbusy hfits horphan hseq hcur hm hearly)
  rw [hstep, answerCurrent_ok (s := { s with sched := rest }) hverdict]
  rfl

/-- Settles O33: whatever the answer, the orphan and the outstanding submission are all that goes. -/
theorem orphanAnswerDiscarded : Obligations.OrphanAnswerDiscarded := by
  intro s rest t sub a hsched hbusy hbus horphan hlen
  have hfits : answerFits s a = true := (answerFits_iff hbus).mpr hlen
  exact (step_of_sched hsched).trans (busStep_of_orphan hbusy hfits horphan)

/-! The deadline. -/

/-- Any time in the untimed model, from the deadline on in the timed refinement (43_sequencer R137, R138). -/
theorem deadlineReached_iff {s : State} {m : Message} :
    deadlineReached s m = true ↔ s.cfg.timed = false ∨ ∃ d, m.deadline = some d ∧ d ≤ s.now := by
  cases htimed : s.cfg.timed with
  | false => simp [deadlineReached, htimed]
  | true => cases hd : m.deadline <;> simp [deadlineReached, htimed, hd]

/-- The current message expires once its deadline is reached (43_sequencer R137). -/
theorem expireStep_of_reached {s : State} {t : Nat} {m : Message} (hserving : Safety.serving s) (hcur : s.cur = some t)
    (hm : memGet s.msgs t = some m) (hreached : deadlineReached s m = true) :
    expireStep s = .next (expireMessage t m s) := by
  simp only [expireStep, hcur, hm, if_pos hserving, if_pos hreached]

/-- Before that the timer has no step (43_sequencer R138). -/
theorem expireStep_of_early {s : State} {t : Nat} {m : Message} (hserving : Safety.serving s) (hcur : s.cur = some t)
    (hm : memGet s.msgs t = some m) (hearly : ¬ deadlineReached s m = true) : expireStep s = .next s := by
  simp only [expireStep, hcur, hm, if_pos hserving, if_neg hearly]

/-- Settles O32: the two clauses are the two sides of the deadline. -/
theorem expiryEndsMessage : Obligations.ExpiryEndsMessage := by
  intro s rest t m hsched hserving hcur hm
  refine ⟨fun hreached => ?_, fun htimed hbefore => ?_⟩
  · have hdue : deadlineReached s m = true := deadlineReached_iff.mpr hreached
    exact (step_of_sched hsched).trans (expireStep_of_reached hserving hcur hm hdue)
  · have hearly : ¬ deadlineReached s m = true := by
      rw [deadlineReached_iff]
      rintro (huntimed | ⟨d, hd, hle⟩)
      · exact absurd (htimed.symm.trans huntimed) (by decide)
      · exact absurd hle (hbefore d hd).not_ge
    exact (step_of_sched hsched).trans (expireStep_of_early hserving hcur hm hearly)

/-! SetSpeed. -/

theorem setSpeedStep_of_pos {hz : Nat} (hpos : 0 < hz) (s : State) :
    setSpeedStep hz s = .next { s with speed := hz } := if_pos hpos

theorem setSpeedStep_zero (s : State) : setSpeedStep 0 s = .next (s.emit .speedRefused) := rfl

/-- Settles O37, by the two cases of SetSpeed. -/
theorem setSpeedWritesPositive : Obligations.SetSpeedWritesPositive := by
  intro s rest hz hsched
  rw [step_of_sched hsched, eventStep]
  refine ⟨fun hpos => setSpeedStep_of_pos hpos _, ?_⟩
  rintro rfl
  exact setSpeedStep_zero _

end Sys2Proof.Machine
end

section
/-! PROOFS. Which replies complete (44_validation R151 to R155, R158, R159): each check of the validator read as a proposition, the
two classes' verdicts as the conjunction of their checks, and the result the verdict selects. -/

namespace Sys2Proof.Machine

/-! The validator's checks. -/

theorem opcodeMatches_iff {cfg : Config} {op : FunctionCode} {rx : List Byte} :
    opcodeMatches cfg op rx = true ↔ opcodeByte cfg.opcodes op = some (byteOf rx 0) := beq_iff_eq

/-- The checksum covers a prefix of the reply, whose length the scope gives (44_validation R153). -/
theorem replyCovered_eq_take (cfg : Config) (p : Nat) (rx : List Byte) :
    replyCovered cfg p rx = rx.take (if cfg.crcScope = .headerPlusPayload then 4 + p else 4) := by
  cases hscope : cfg.crcScope <;> simp [replyCovered, hscope, memRead]

theorem crcOk_iff {cfg : Config} {p : Nat} {rx : List Byte} :
    crcOk cfg p rx = true ↔
      checksum cfg.crcTable (rx.take (if cfg.crcScope = .headerPlusPayload then 4 + p else 4)) cfg.crcInit =
        le16 (byteOf rx (4 + p)) (byteOf rx (5 + p)) := by
  rw [← replyCovered_eq_take]
  exact beq_iff_eq

/-- Every read opcode is two-phase (30_encoding R67), so `validate1`'s address branch is never taken (44_validation R151). -/
theorem isTwoPhase_of_isRead {op : FunctionCode} (hread : isRead op = true) : isTwoPhase op = true := by
  cases op with
  | readBit | readRegister => rfl
  | _ => exact absurd hread Bool.false_ne_true

/-! The verdict of each class. -/

theorem validateState_of_twoPhase {op : FunctionCode} (hop : isTwoPhase op = true) (cfg : Config) (addr : Half)
    (count : Nat) (rx : List Byte) : validateState cfg op addr count rx = validate2 cfg op addr count rx := if_pos hop

theorem validateState_of_onePhase {op : FunctionCode} (hop : isTwoPhase op = false) (cfg : Config) (addr : Half)
    (count : Nat) (rx : List Byte) : validateState cfg op addr count rx = validate1 cfg op addr rx :=
  if_neg (Bool.eq_false_iff.mp hop)

theorem validate2_completed_iff {cfg : Config} {op : FunctionCode} {addr : Half} {count : Nat} {rx : List Byte} :
    validate2 cfg op addr count rx = .completed ↔
      crcOk cfg (plen op count) rx = true ∧ opcodeMatches cfg op rx = true ∧
        (isRead op = true → le16 (byteOf rx 2) (byteOf rx 3) = addr) := by
  simp [validate2, ite_eq_iff]

theorem validate1_completed_iff {cfg : Config} {op : FunctionCode} {addr : Half} {rx : List Byte} :
    validate1 cfg op addr rx = .completed ↔
      opcodeMatches cfg op rx = true ∧ (isRead op = true → oneReplyAddr cfg rx = addr) := by
  simp [validate1, ite_eq_iff]

/-- A reply completes its message or is a protocol error: the validator ends no message otherwise (44_validation R161). -/
theorem validateState_cases (cfg : Config) (op : FunctionCode) (addr : Half) (count : Nat) (rx : List Byte) :
    validateState cfg op addr count rx = .completed ∨ validateState cfg op addr count rx = .protocolError := by
  cases hop : isTwoPhase op with
  | true =>
    rw [validateState_of_twoPhase hop, validate2]
    split_ifs <;> simp
  | false =>
    rw [validateState_of_onePhase hop, validate1]
    split_ifs <;> simp

/-! The result. -/

/-- The verdict and the result it selects (44_validation R159). -/
theorem validate_eq (cfg : Config) (op : FunctionCode) (addr : Half) (count : Nat) (rx : List Byte) :
    validate cfg op addr count rx =
      (validateState cfg op addr count rx,
        if validateState cfg op addr count rx = .completed then decodeResult op count rx else .nothing) := by
  rcases validateState_cases cfg op addr count rx with h | h <;> simp [validate, h]

/-- What reads nothing has no result (44_validation R158). -/
theorem decodeResult_of_not_read {op : FunctionCode} (hop : isRead op = false) (count : Nat) (rx : List Byte) :
    decodeResult op count rx = .nothing := by
  cases op with
  | readBit | readRegister => exact absurd hop.symm Bool.false_ne_true
  | _ => rfl

/-- Settles O23, class by class; the one-phase address check is vacuous, for a read is two-phase. -/
theorem replyVerdict : Obligations.ReplyVerdict := by
  refine ⟨rfl, fun cfg op addr count rx _ => ?_⟩
  refine ⟨fun htwo => ?_, fun hone => ?_, fun hfails => ?_, ?_, ?_, fun hwrite => ?_⟩
  · rw [validateState_of_twoPhase htwo, validate2_completed_iff, crcOk_iff, opcodeMatches_iff]
  · have hnoRead : ¬ isRead op = true := fun hread => Bool.false_ne_true (hone.symm.trans (isTwoPhase_of_isRead hread))
    rw [validateState_of_onePhase hone, validate1_completed_iff, opcodeMatches_iff]
    exact and_iff_left fun hread => absurd hread hnoRead
  · exact (validateState_cases cfg op addr count rx).resolve_left hfails
  · rw [validate_eq]
  · rw [validate_eq]
  · rw [validate_eq, decodeResult_of_not_read hwrite, ite_self]

end Sys2Proof.Machine
end

section
/-! PROOFS. Reset and hazards (70_reset R187, R193, R197): the configuration stays, a host read of what is not there faults, and two
instances on one device have no meaning. -/

namespace Sys2Proof.Machine

/-- Settles O54, from the two effects a step can have on the tags, neither of which touches the configuration. -/
theorem configNeverChanges : Obligations.ConfigNeverChanges := fun _ _ => step_cfg

/-! Where the host's reads of a message fault. -/

theorem readRxStep_of_pending {s : State} {t : Nat} {m : Message} (hm : memGet s.msgs t = some m)
    (hpending : m.state = .pending) : readRxStep t s = .fault (.readWhilePending t) := by
  simp only [readRxStep, hm, if_pos hpending]

theorem readRxStep_of_noValue {s : State} {t : Nat} {m : Message} (hm : memGet s.msgs t = some m)
    (hended : m.state ≠ .pending) (hrx : m.rx = none) : readRxStep t s = .fault (.rxNoValue t) := by
  simp only [readRxStep, hm, if_neg hended, hrx]

theorem readResultStep_of_pending {s : State} {t : Nat} {m : Message} (hm : memGet s.msgs t = some m)
    (hpending : m.state = .pending) : readResultStep t s = .fault (.readWhilePending t) := by
  simp only [readResultStep, hm, if_pos hpending]

/-- A message without a reply has no `rx`: only a reply completes a message or makes it a protocol error (10_state R28). -/
theorem rx_eq_none_of_noReply {s : State} {t : Nat} {m : Message} (hrec : Safety.RecordInv s)
    (hm : memGet s.msgs t = some m) (hnotCompleted : m.state ≠ .completed) (hnotError : m.state ≠ .protocolError) :
    m.rx = none := by
  have hnoReply : ¬ (m.state = .completed ∨ m.state = .protocolError) := not_or.mpr ⟨hnotCompleted, hnotError⟩
  exact Option.not_isSome_iff_eq_none.mp (mt (hrec.rxHeld t m hm).mp hnoReply)

/-- Settles O42: the step is the read, which faults on a Pending message, and on a TimedOut or TransportError one because the
invariant leaves it no `rx`. -/
theorem earlyReadsFault : Obligations.EarlyReadsFault := by
  intro s rest t m hinv hm
  refine ⟨fun hpending => ⟨fun hsched => ?_, fun hsched => ?_⟩, fun hended hsched => ?_⟩
  · exact (step_of_sched hsched).trans (readRxStep_of_pending hm hpending)
  · exact (step_of_sched hsched).trans (readResultStep_of_pending hm hpending)
  · have hstate : m.state ≠ .pending ∧ m.state ≠ .completed ∧ m.state ≠ .protocolError := by
      rcases hended with h | h <;> simp [h]
    obtain ⟨hnotPending, hnotCompleted, hnotError⟩ := hstate
    have hrx : m.rx = none := rx_eq_none_of_noReply hinv.records hm hnotCompleted hnotError
    exact (step_of_sched hsched).trans (readRxStep_of_noValue hm hnotPending hrx)

/-! Several instances. -/

/-- A system has a meaning when no two instances share an index or a device (70_reset R189, R197). -/
theorem System.legal_iff {sys : System} :
    sys.legal = true ↔ (sys.map Node.index).Nodup ∧ (sys.map Node.device).Nodup := by
  simp [System.legal]

/-- A system that is not legal is refused by name, whichever instance is to step. -/
theorem systemStep_of_not_legal {k : Fin 3} {sys : System} (hlegal : ¬ sys.legal = true) :
    systemStep k sys = .refused .sharedDevice := if_neg hlegal

/-- Settles O60: a legal system has no two instances on one device. -/
theorem sharedDeviceRefused : Obligations.SharedDeviceRefused := by
  intro k sys hshared
  refine systemStep_of_not_legal fun hlegal => ?_
  obtain ⟨_, hdistinct⟩ := System.legal_iff.mp hlegal
  exact hshared hdistinct

end Sys2Proof.Machine
end

section
/-! PROOFS. Packed payloads (30_encoding R71): what a packed register or bit reads as, that a payload is determined by its bits, and
that the bit loop of 41_framing R98 packs as the tables of 30_encoding say. -/

namespace Sys2Proof.Machine

/-! Bytes of a list. -/

@[simp] theorem byteOf_cons_zero (b : Byte) (bs : List Byte) : byteOf (b :: bs) 0 = b := rfl

@[simp] theorem byteOf_cons_succ (b : Byte) (bs : List Byte) (i : Nat) : byteOf (b :: bs) (i + 1) = byteOf bs i := rfl

theorem byteOf_append_left {xs : List Byte} {i : Nat} (h : i < xs.length) (ys : List Byte) :
    byteOf (xs ++ ys) i = byteOf xs i := by
  simp [byteOf, List.getD, List.getElem?_append_left h]

theorem byteOf_append_right (xs ys : List Byte) (i : Nat) : byteOf (xs ++ ys) (xs.length + i) = byteOf ys i := by
  simp [byteOf, List.getD, List.getElem?_append_right]

theorem byteOf_zeros (n k : Nat) : byteOf (zeros n) k = 0#8 := by
  simp only [byteOf, zeros, List.getD, List.getElem?_replicate]
  split <;> rfl

/-! Packed registers. -/

@[simp] theorem packRegs_cons (v : Half) (vs : List Half) : packRegs (v :: vs) = lo8 v :: hi8 v :: packRegs vs := rfl

@[simp] theorem regAt_cons_cons_zero (a b : Byte) (bs : List Byte) : regAt (a :: b :: bs) 0 = le16 a b := rfl

@[simp] theorem regAt_cons_cons_succ (a b : Byte) (bs : List Byte) (i : Nat) :
    regAt (a :: b :: bs) (i + 1) = regAt bs i := rfl

/-- Packed registers read back, whatever stands behind them (30_encoding R71). -/
theorem regAt_packRegs_append (vs : List Half) (rest : List Byte) {i : Nat} (h : i < vs.length) :
    regAt (packRegs vs ++ rest) i = vs[i] := by
  induction vs generalizing i with
  | nil => exact absurd h (Nat.not_lt_zero i)
  | cons v vs ih =>
    cases i with
    | zero => simp
    | succ i => simpa using ih (Nat.lt_of_succ_lt_succ h)

theorem map_regAt_packRegs_append (vs : List Half) (rest : List Byte) :
    (List.range vs.length).map (regAt (packRegs vs ++ rest)) = vs :=
  List.ext_getElem (by simp) fun i _ h => by simp [regAt_packRegs_append vs rest h]

/-- A payload of whole registers is the packing of the registers it reads as. -/
theorem packRegs_map_regAt {count : Nat} {payload : List Byte} (h : payload.length = 2 * count) :
    packRegs ((List.range count).map (regAt payload)) = payload := by
  induction count generalizing payload with
  | zero => exact (List.length_eq_zero_iff.mp h).symm
  | succ n ih =>
    match payload, h with
    | a :: b :: bs, h =>
      have hbs : bs.length = 2 * n := by simp only [List.length_cons] at h; omega
      have htail : (List.range n).map (fun i => regAt (a :: b :: bs) (i + 1)) = (List.range n).map (regAt bs) := rfl
      simp [List.range_succ_eq_map, Function.comp_def, ih hbs]

/-! Packed bits. -/

/-- Every value is a bit (30_encoding R64). -/
def AreBits (vs : List Half) : Prop := ∀ v ∈ vs, v.toNat ≤ 1

theorem AreBits.tail {v : Half} {vs : List Half} (h : AreBits (v :: vs)) : AreBits vs :=
  fun u hu => h u (List.mem_cons_of_mem v hu)

theorem AreBits.drop {vs : List Half} (h : AreBits vs) (n : Nat) : AreBits (vs.drop n) :=
  fun u hu => h u (List.mem_of_mem_drop hu)

theorem AreBits.take {vs : List Half} (h : AreBits vs) (n : Nat) : AreBits (vs.take n) :=
  fun u hu => h u (List.mem_of_mem_take hu)

theorem eq_zero_or_one_of_le_one {v : Half} (h : v.toNat ≤ 1) : v = 0#16 ∨ v = 1#16 := by
  have hv : v.toNat = 0 ∨ v.toNat = 1 := by omega
  exact hv.imp (BitVec.eq_of_toNat_eq ·) (BitVec.eq_of_toNat_eq ·)

/-- A bit as a byte has its one bit at position 0. -/
theorem getLsbD_setWidth_of_le_one {v : Half} (h : v.toNat ≤ 1) (k : Nat) :
    (v.setWidth 8 : Byte).getLsbD k = decide (k = 0 ∧ v = 1#16) := by
  rcases eq_zero_or_one_of_le_one h with rfl | rfl
  · simp
  · cases k <;> simp

theorem getLsbD_packByte {vs : List Half} (h : AreBits vs) (k : Nat) :
    (packByte vs).getLsbD k = decide (k < 8 ∧ vs[k]? = some 1#16) := by
  induction vs generalizing k with
  | nil => simp [packByte]
  | cons v vs ih =>
    have hv : v.toNat ≤ 1 := h v List.mem_cons_self
    rw [packByte, BitVec.getLsbD_or, BitVec.getLsbD_shiftLeft, getLsbD_setWidth_of_le_one hv, ih h.tail]
    cases k with
    | zero => simp
    | succ k =>
      by_cases hk : k + 1 < 8
      · simp [hk, Nat.lt_of_succ_lt hk]
      · simp [hk]

theorem bitAt_cons_lt {k : Nat} (hk : k < 8) (b : Byte) (bs : List Byte) : bitAt (b :: bs) k = b.getLsbD k := by
  simp [bitAt, Nat.div_eq_of_lt hk, Nat.mod_eq_of_lt hk]

theorem bitAt_cons_add (b : Byte) (bs : List Byte) (k : Nat) : bitAt (b :: bs) (k + 8) = bitAt bs k := by
  simp [bitAt]

/-- Bit k of the packed payload is the k-th value (30_encoding R71). -/
theorem bitAt_packBits {vs : List Half} (h : AreBits vs) (n k : Nat) :
    bitAt (packBits n vs) k = decide (k < 8 * n ∧ vs[k]? = some 1#16) := by
  induction n generalizing vs k with
  | zero => simp [packBits, bitAt, byteOf]
  | succ n ih =>
    rcases Nat.lt_or_ge k 8 with hk | hk
    · have hlt : k < 8 * (n + 1) := by omega
      rw [packBits, bitAt_cons_lt hk, getLsbD_packByte (h.take 8), List.getElem?_take_of_lt hk]
      simp [hk, hlt]
    · obtain ⟨j, rfl⟩ := Nat.exists_eq_add_of_le' hk
      have hlt : j + 8 < 8 * (n + 1) ↔ j < 8 * n := by omega
      simp [packBits, bitAt_cons_add, ih (h.drop 8), hlt, Nat.add_comm 8 j]

theorem bitAt_append_left {xs : List Byte} {k : Nat} (h : k < 8 * xs.length) (ys : List Byte) :
    bitAt (xs ++ ys) k = bitAt xs k := by
  rw [bitAt, byteOf_append_left (by omega), bitAt]

/-- A payload is determined by its length and its bits. -/
theorem eq_of_bitAt {xs ys : List Byte} (hlen : xs.length = ys.length)
    (h : ∀ k, k < 8 * xs.length → bitAt xs k = bitAt ys k) : xs = ys := by
  induction xs generalizing ys with
  | nil => exact (List.length_eq_zero_iff.mp hlen.symm).symm
  | cons x xs ih =>
    match ys, hlen with
    | y :: ys, hlen =>
      have hhead : x = y := by
        refine BitVec.eq_of_getLsbD_eq fun k hk => ?_
        have := h k (by simp only [List.length_cons]; omega)
        rwa [bitAt_cons_lt hk, bitAt_cons_lt hk] at this
      have htail : xs = ys := by
        refine ih (Nat.succ.inj hlen) fun k hk => ?_
        have := h (k + 8) (by simp only [List.length_cons]; omega)
        rwa [bitAt_cons_add, bitAt_cons_add] at this
      rw [hhead, htail]

/-- One turn of the bit loop of `build2` (41_framing R98). -/
theorem bitAt_modify_or {v : Half} (hv : v.toNat ≤ 1) {pay : List Byte} {i : Nat} (hi : i < 8 * pay.length) (k : Nat) :
    bitAt (pay.modify (i / 8) (fun b => b ||| (v.setWidth 8 <<< (i % 8)))) k =
      (bitAt pay k || decide (k = i ∧ v = 1#16)) := by
  have hbyte : i / 8 < pay.length := by omega
  by_cases hsame : k / 8 = i / 8
  · have hpos : (k % 8 < i % 8 ∨ k % 8 - i % 8 ≠ 0) ∧ k ≠ i ∨ (¬ k % 8 < i % 8 ∧ k % 8 - i % 8 = 0) ∧ k = i := by omega
    have hk8 : k % 8 < 8 := Nat.mod_lt k (by decide)
    rcases hpos with ⟨hpos, hne⟩ | ⟨⟨hlt, hsub⟩, heq⟩
    · rcases hpos with hlt | hsub
      · simp [bitAt, byteOf, hsame, List.getD, hbyte, hne, hlt]
      · simp [bitAt, byteOf, hsame, List.getD, hbyte, hne, getLsbD_setWidth_of_le_one hv, hsub]
    · rcases eq_zero_or_one_of_le_one hv with rfl | rfl <;>
        simp [bitAt, byteOf, List.getD, hbyte, heq, Nat.mod_lt]
  · have hne : k ≠ i := fun e => hsame (e ▸ rfl)
    simp [bitAt, byteOf, List.getD, Ne.symm hsame, hne]

theorem bitAt_orBits {vs : List Half} (h : AreBits vs) (i : Nat) {pay : List Byte}
    (hlen : i + vs.length ≤ 8 * pay.length) (k : Nat) :
    bitAt (orBits i vs pay) k = (bitAt pay k || decide (i ≤ k ∧ vs[k - i]? = some 1#16)) := by
  induction vs generalizing i pay with
  | nil => simp [orBits]
  | cons v vs ih =>
    have hv : v.toNat ≤ 1 := h v List.mem_cons_self
    simp only [List.length_cons] at hlen
    rw [orBits, ih h.tail (i + 1) (by rw [List.length_modify]; omega), bitAt_modify_or hv (by omega), Bool.or_assoc]
    congr 1
    rcases Nat.lt_trichotomy k i with hk | rfl | hk
    · simp [hk.ne, hk.not_ge, show ¬ i + 1 ≤ k by omega]
    · simp
    · obtain ⟨j, rfl⟩ := Nat.exists_eq_add_of_lt hk
      have hsub : i + j + 1 - i = j + 1 := by omega
      have hsub' : i + j + 1 - (i + 1) = j := by omega
      have hne : i + j + 1 ≠ i := by omega
      have hle : i ≤ i + j + 1 := by omega
      have hle' : i + 1 ≤ i + j + 1 := by omega
      simp [hsub, hsub', hne, hle, hle']

theorem bitAt_zeros (n k : Nat) : bitAt (zeros n) k = false := by
  simp [bitAt, byteOf_zeros]

theorem le_mul_ceilDiv (n : Nat) : n ≤ 8 * ceilDiv n 8 := by
  unfold ceilDiv
  omega

/-- The bit loop of 41_framing R98 packs the bits as 30_encoding R71 says. -/
theorem orBits_zeros_eq_packBits {vs : List Half} (h : AreBits vs) :
    orBits 0 vs (zeros (ceilDiv vs.length 8)) = packBits (ceilDiv vs.length 8) vs := by
  have hroom := le_mul_ceilDiv vs.length
  refine eq_of_bitAt (by simp) fun k hk => ?_
  have hk' : k < 8 * ceilDiv vs.length 8 := by simpa using hk
  rw [bitAt_orBits h 0 (by simpa using hroom), bitAt_packBits h]
  simp [bitAt_zeros, hk']

/-- The values the decoder reads from a bit payload (30_encoding R71). -/
def bitsRead (count : Nat) (payload : List Byte) : List Half :=
  (List.range count).map fun i => if bitAt payload i then 1#16 else 0#16

@[simp] theorem bitsRead_length (count : Nat) (payload : List Byte) : (bitsRead count payload).length = count := by
  simp [bitsRead]

theorem areBits_bitsRead (count : Nat) (payload : List Byte) : AreBits (bitsRead count payload) := by
  intro v hv
  obtain ⟨i, _, rfl⟩ := List.mem_map.mp hv
  split <;> decide

/-- Packed bits read back. -/
theorem bitsRead_packBits {vs : List Half} (h : AreBits vs) :
    bitsRead vs.length (packBits (ceilDiv vs.length 8) vs) = vs := by
  refine List.ext_getElem (by simp) fun k _ hk => ?_
  have hroom : k < 8 * ceilDiv vs.length 8 := hk.trans_le (le_mul_ceilDiv _)
  rcases eq_zero_or_one_of_le_one (h vs[k] (List.getElem_mem hk)) with hv | hv <;>
    simp [bitsRead, bitAt_packBits h, hroom, hk, hv]

end Sys2Proof.Machine
end

section
/-! PROOFS. Frames, written and read back (30_encoding R66 to R72, R75, R76): the opcode bytes, the frames in closed form, and the
decoder as the inverse of the encoder, in both directions. -/

namespace Sys2Proof

open Machine

/-! Opcode bytes. -/

theorem functionCodeOf_of_opcodeByte {o : Opcodes} (hinj : o.injective) {op : FunctionCode} {b : Byte}
    (h : opcodeByte o op = some b) : functionCodeOf o b = some op := by
  have hdistinct : o.toList.Nodup := hinj
  simp only [Opcodes.toList, List.nodup_cons, List.mem_cons, List.not_mem_nil, not_or] at hdistinct
  cases op with
  | invalid => cases h
  | _ => obtain rfl := Option.some.inj h; simp_all [functionCodeOf, eq_comm]

theorem opcodeByte_of_functionCodeOf {o : Opcodes} {op : FunctionCode} {b : Byte}
    (h : functionCodeOf o b = some op) : opcodeByte o op = some b := by
  unfold functionCodeOf at h
  split_ifs at h with hb
  all_goals
    obtain rfl := Option.some.inj h
    simp [opcodeByte, *]

/-! Frames in closed form. -/

/-- The bytes the trailer of a two-phase frame covers (30_encoding R72). -/
def coveredF2 (cfg : Config) (op : Byte) (count : Nat) (addr : Half) (payload : List Byte) : List Byte :=
  [op, BitVec.ofNat 8 count, lo8 addr, hi8 addr] ++ if cfg.crcScope = .headerPlusPayload then payload else []

/-- A two-phase frame: header, payload and trailer (30_encoding R70 to R72). -/
theorem encodeF2_eq (cfg : Config) (op : Byte) (count : Nat) (addr : Half) (payload : List Byte) :
    encodeF2 cfg op count addr payload =
      [op, BitVec.ofNat 8 count, lo8 addr, hi8 addr] ++ payload ++
        le16bytes (frameChecksum cfg (coveredF2 cfg op count addr payload)) := by
  cases hscope : cfg.crcScope <;> simp [encodeF2, encodeTrailer, coveredF2, hscope]

/-- A one-phase frame: four bytes and the trailer over them (30_encoding R68, R69). -/
theorem encodeF1_eq (cfg : Config) (op b1 : Byte) (w : Half) :
    encodeF1 cfg op b1 w = [op, b1, lo8 w, hi8 w] ++ le16bytes (frameChecksum cfg [op, b1, lo8 w, hi8 w]) := rfl

/-! What the decoder reads from a frame's fields. -/

theorem decodeOnePhase_append (b1 : Byte) (w : Half) (trailer : Half) (rest : List Byte)
    (read : Byte → Half → Except DecodeError Instr) {i : Instr} (h : read b1 w = .ok i) :
    decodeOnePhase (b1 :: lo8 w :: hi8 w :: (le16bytes trailer ++ rest)) read = .ok (i, rest) := by
  simp [decodeOnePhase, le16bytes, h]

theorem decodeTwoPhase_append {op : FunctionCode} {count : Nat} (hcount : count ≤ 255) (addr trailer : Half)
    {payload : List Byte} (hlen : payload.length = plen op count) (rest : List Byte)
    {read : Half → Nat → List Byte → Except DecodeError Instr} {i : Instr} (h : read addr count payload = .ok i) :
    decodeTwoPhase op (BitVec.ofNat 8 count :: lo8 addr :: hi8 addr :: (payload ++ (le16bytes trailer ++ rest))) read =
      .ok (i, rest) := by
  have hnat : (BitVec.ofNat 8 count).toNat = count := by simp; omega
  simp only [decodeTwoPhase, hnat, ← hlen, le16_lo8_hi8, List.take_left, h]
  rw [if_neg (by simp; omega), ← List.drop_drop, List.drop_left]
  rfl

/-- An F1 frame is read as its fields, whatever follows it. -/
theorem decode_encodeF1_append {cfg : Config} {b b1 : Byte} {w : Half}
    {read : Byte → Half → Except DecodeError Instr} {i : Instr}
    (hop : ∀ bs, decode cfg (b :: bs) = decodeOnePhase bs read) (h : read b1 w = .ok i) (rest : List Byte) :
    decode cfg (encodeF1 cfg b b1 w ++ rest) = .ok (i, rest) := by
  rw [encodeF1_eq, List.append_assoc]
  exact (hop _).trans (decodeOnePhase_append b1 w _ rest read h)

/-- An F2 frame is read as its fields, whatever follows it. -/
theorem decode_encodeF2_append {cfg : Config} {op : FunctionCode} {b : Byte} {count : Nat} {addr : Half}
    {payload : List Byte} {read : Half → Nat → List Byte → Except DecodeError Instr} {i : Instr}
    (hop : ∀ bs, decode cfg (b :: bs) = decodeTwoPhase op bs read) (hcount : count ≤ 255)
    (hlen : payload.length = plen op count) (h : read addr count payload = .ok i) (rest : List Byte) :
    decode cfg (encodeF2 cfg b count addr payload ++ rest) = .ok (i, rest) := by
  rw [encodeF2_eq, List.append_assoc, List.append_assoc]
  exact (hop _).trans (decodeTwoPhase_append hcount addr _ hlen rest h)

/-! The readers on the fields the encoder writes. -/

theorem readIdle_zero : readIdle 0#8 0#16 = .ok (.idle .noOperands) := if_pos ⟨rfl, rfl⟩

theorem readReadBit_zeros (addr : Half) (count : Nat) :
    readReadBit addr count (zeros (plen .readBit count)) = .ok (.readBit (.read addr count)) := if_pos rfl

theorem readReadRegister_zeros (addr : Half) (count : Nat) :
    readReadRegister addr count (zeros (plen .readRegister count)) = .ok (.readRegister (.read addr count)) :=
  if_pos rfl

theorem readWriteRegister_packRegs (addr : Half) (values : List Half) :
    readWriteRegister addr values.length (packRegs values) = .ok (.writeRegister (.writeMany addr values)) := by
  have hread := map_regAt_packRegs_append values []
  rw [List.append_nil] at hread
  simp only [readWriteRegister, hread]

theorem readWriteBits_eq (addr : Half) (count : Nat) (payload : List Byte) :
    readWriteBits addr count payload =
      if packBits (plen .writeBits count) (bitsRead count payload) = payload then
        .ok (.writeBits (.writeMany addr (bitsRead count payload)))
      else .error .padBits := rfl

theorem readWriteBits_packBits (addr : Half) {values : List Half} (h : AreBits values) :
    readWriteBits addr values.length (packBits (plen .writeBits values.length) values) =
      .ok (.writeBits (.writeMany addr values)) := by
  have hread : bitsRead values.length (packBits (plen .writeBits values.length) values) = values := bitsRead_packBits h
  rw [readWriteBits_eq, hread, if_pos rfl]

theorem setWidth_lo8 {v : Half} (h : v.toNat ≤ 0xFF) : (lo8 v).setWidth 16 = v := by
  apply BitVec.eq_of_toNat_eq
  simp [lo8]
  omega

theorem wellFormed_writeBits_iff {cfg : Config} {addr : Half} {values : List Half} :
    (Instr.writeBits (.writeMany addr values)).wellFormed cfg = true ↔ values.length ≤ 255 ∧ AreBits values := by
  simp [Instr.wellFormed, AreBits]

/-- WriteBit's frame is read back under either layout (30_encoding R68, R69, R75). -/
theorem decode_encodeWriteBit_append {cfg : Config} (hinj : cfg.opcodes.injective) {addr value : Half}
    (hfits : writeBitFits cfg.onePhaseLayout addr value = true) (rest : List Byte) :
    decode cfg (encodeWriteBit cfg addr value ++ rest) = .ok (.writeBit (.writeOne addr value), rest) := by
  have hop : ∀ bs, decode cfg (cfg.opcodes.writeBit :: bs) =
      decodeOnePhase bs (readWriteBit cfg.onePhaseLayout) := fun bs => by
    simp only [decode, functionCodeOf_of_opcodeByte hinj (op := .writeBit) rfl]
  cases hlayout : cfg.onePhaseLayout with
  | addrByte =>
    have haddr : addr.toNat ≤ 0xFF := by simpa [writeBitFits, hlayout] using hfits
    simp only [encodeWriteBit, hlayout]
    exact decode_encodeF1_append hop (by simp [readWriteBit, hlayout, setWidth_lo8 haddr]) rest
  | addrWord =>
    have hvalue : value.toNat ≤ 0xFF := by simpa [writeBitFits, hlayout] using hfits
    simp only [encodeWriteBit, hlayout]
    exact decode_encodeF1_append hop (by simp [readWriteBit, hlayout, setWidth_lo8 hvalue]) rest

/-- Settles O1, instruction by instruction: the frame is read as its fields, and the reader gives the operands back. -/
theorem decodeReadsBackEncode : Obligations.DecodeReadsBackEncode := by
  intro cfg i rest hinj hwf
  have hop : ∀ {op b}, opcodeByte cfg.opcodes op = some b → functionCodeOf cfg.opcodes b = some op :=
    functionCodeOf_of_opcodeByte hinj
  cases i with
  | readBit c =>
    cases c with
    | read addr count =>
      exact decode_encodeF2_append (fun _ => by simp only [decode, hop (op := .readBit) rfl])
        (by simpa [Instr.wellFormed] using hwf) (zeros_length _) (readReadBit_zeros addr count) rest
    | _ => cases hwf
  | readRegister c =>
    cases c with
    | read addr count =>
      exact decode_encodeF2_append (fun _ => by simp only [decode, hop (op := .readRegister) rfl])
        (by simpa [Instr.wellFormed] using hwf) (zeros_length _) (readReadRegister_zeros addr count) rest
    | _ => cases hwf
  | writeBit c =>
    cases c with
    | writeOne addr value => exact decode_encodeWriteBit_append hinj hwf rest
    | _ => cases hwf
  | writeRegister c =>
    cases c with
    | writeMany addr values =>
      exact decode_encodeF2_append (op := .writeRegister)
        (fun _ => by simp only [decode, hop (op := .writeRegister) rfl]) (by simpa [Instr.wellFormed] using hwf)
        (packRegs_length values) (readWriteRegister_packRegs addr values) rest
    | _ => cases hwf
  | writeBits c =>
    cases c with
    | writeMany addr values =>
      obtain ⟨hcount, hbits⟩ := wellFormed_writeBits_iff.mp hwf
      exact decode_encodeF2_append (fun _ => by simp only [decode, hop (op := .writeBits) rfl])
        hcount (packBits_length _ values) (readWriteBits_packBits addr hbits) rest
    | _ => cases hwf
  | writeCharacter c =>
    cases c with
    | noOperands => simp [encode, decode, hop (op := .writeCharacter) rfl]
    | _ => cases hwf
  | writeString c =>
    cases c with
    | noOperands => simp [encode, decode, hop (op := .writeString) rfl]
    | _ => cases hwf
  | readString c =>
    cases c with
    | noOperands => simp [encode, decode, hop (op := .readString) rfl]
    | _ => cases hwf
  | idle c =>
    cases c with
    | noOperands =>
      exact decode_encodeF1_append (fun _ => by simp only [decode, hop (op := .idle) rfl]) readIdle_zero rest
    | _ => cases hwf
  | invalid c => cases hwf

/-! What the decoder reads is a frame. -/

/-- The bytes are the request's frame, up to the two bytes of its trailer, and the request is well formed (30_encoding R75, R76). -/
structure IsFrameOf (cfg : Config) (i : Instr) (used : List Byte) : Prop where
  wellFormed : i.wellFormed cfg = true
  length : used.length = (encode cfg i).length
  agree : ∀ k, (k < 4 ∨ k + 2 < used.length) → used[k]? = (encode cfg i)[k]?

/-- Two frames with one body of at least four bytes differ in the trailer alone. -/
theorem isFrameOf_of_body {cfg : Config} {i : Instr} {body : List Byte} {crc : Half} (hwf : i.wellFormed cfg = true)
    (henc : encode cfg i = body ++ le16bytes crc) (hbody : 4 ≤ body.length) (c0 c1 : Byte) :
    IsFrameOf cfg i (body ++ [c0, c1]) where
  wellFormed := hwf
  length := by simp [henc]
  agree k hk := by
    have hlt : k < body.length := by
      simp only [List.length_append, List.length_cons, List.length_nil] at hk
      omega
    rw [henc, List.getElem?_append_left hlt, List.getElem?_append_left hlt]

/-- A bare opcode byte is its own frame (log 16). -/
theorem isFrameOf_bare {cfg : Config} {i : Instr} {b : Byte} (hwf : i.wellFormed cfg = true)
    (henc : encode cfg i = [b]) : IsFrameOf cfg i [b] :=
  ⟨hwf, by rw [henc], fun _ _ => by rw [henc]⟩

theorem decodeOnePhase_ok {bs after : List Byte} {read : Byte → Half → Except DecodeError Instr} {i : Instr}
    (h : decodeOnePhase bs read = .ok (i, after)) :
    ∃ b1 wLo wHi c0 c1, bs = b1 :: wLo :: wHi :: c0 :: c1 :: after ∧ read b1 (le16 wLo wHi) = .ok i := by
  unfold decodeOnePhase at h
  split at h
  · next b1 wLo wHi c0 c1 _ =>
    split at h
    · next hread =>
      cases h
      exact ⟨b1, wLo, wHi, c0, c1, rfl, hread⟩
    · cases h
  · cases h

theorem decodeTwoPhase_ok {op : FunctionCode} {bs after : List Byte}
    {read : Half → Nat → List Byte → Except DecodeError Instr} {i : Instr}
    (h : decodeTwoPhase op bs read = .ok (i, after)) :
    ∃ len aLo aHi payload c0 c1, bs = len :: aLo :: aHi :: (payload ++ c0 :: c1 :: after) ∧
      payload.length = plen op len.toNat ∧ read (le16 aLo aHi) len.toNat payload = .ok i := by
  unfold decodeTwoPhase at h
  split at h
  · next len aLo aHi body =>
    dsimp only at h
    split at h
    · cases h
    · next hlong =>
      split at h
      · next hread =>
        cases h
        have hp : plen op len.toNat + 2 ≤ body.length := Nat.not_lt.mp hlong
        obtain ⟨c0, c1, tail, htail⟩ : ∃ c0 c1 tail, body.drop (plen op len.toNat) = c0 :: c1 :: tail := by
          have hlen : 2 ≤ (body.drop (plen op len.toNat)).length := by rw [List.length_drop]; omega
          match body.drop (plen op len.toNat), hlen with
          | c0 :: c1 :: tail, _ => exact ⟨c0, c1, tail, rfl⟩
        refine ⟨len, aLo, aHi, body.take (plen op len.toNat), c0, c1, ?_, by rw [List.length_take]; omega, hread⟩
        have hafter : body.drop (plen op len.toNat + 2) = tail := by rw [← List.drop_drop, htail]; rfl
        rw [hafter, ← htail, List.take_append_drop]
      · cases h
  · cases h

/-- What the one-phase form reads is an F1 frame, if the reader reads what the encoder writes. -/
theorem isFrameOf_of_decodeOnePhase {cfg : Config} {b : Byte} {bs after : List Byte}
    {read : Byte → Half → Except DecodeError Instr} {i : Instr} (h : decodeOnePhase bs read = .ok (i, after))
    (hread : ∀ b1 w, read b1 w = .ok i → i.wellFormed cfg = true ∧ encode cfg i = encodeF1 cfg b b1 w) :
    ∃ used, b :: bs = used ++ after ∧ IsFrameOf cfg i used := by
  obtain ⟨b1, wLo, wHi, c0, c1, rfl, hi⟩ := decodeOnePhase_ok h
  obtain ⟨hwf, henc⟩ := hread _ _ hi
  rw [encodeF1_eq, lo8_le16, hi8_le16] at henc
  exact ⟨[b, b1, wLo, wHi] ++ [c0, c1], rfl, isFrameOf_of_body hwf henc le_rfl c0 c1⟩

/-- What the two-phase form reads is an F2 frame, if the reader reads what the encoder writes. -/
theorem isFrameOf_of_decodeTwoPhase {cfg : Config} {op : FunctionCode} {b : Byte} {bs after : List Byte}
    {read : Half → Nat → List Byte → Except DecodeError Instr} {i : Instr}
    (h : decodeTwoPhase op bs read = .ok (i, after))
    (hread : ∀ addr count payload, count ≤ 255 → payload.length = plen op count → read addr count payload = .ok i →
      i.wellFormed cfg = true ∧ encode cfg i = encodeF2 cfg b count addr payload) :
    ∃ used, b :: bs = used ++ after ∧ IsFrameOf cfg i used := by
  obtain ⟨len, aLo, aHi, payload, c0, c1, rfl, hlen, hi⟩ := decodeTwoPhase_ok h
  obtain ⟨hwf, henc⟩ := hread _ _ _ (Nat.le_of_lt_succ len.isLt) hlen hi
  rw [encodeF2_eq, BitVec.ofNat_toNat, BitVec.setWidth_eq, lo8_le16, hi8_le16] at henc
  exact ⟨[b, len, aLo, aHi] ++ payload ++ [c0, c1], by simp, isFrameOf_of_body hwf henc (by simp) c0 c1⟩

/-! The readers, inverted: what they give is well formed and encodes to the fields they read. -/

section
variable {cfg : Config} {i : Instr}

theorem readReadBit_ok {addr : Half} {count : Nat} {payload : List Byte} (hcount : count ≤ 255)
    (h : readReadBit addr count payload = .ok i) :
    i.wellFormed cfg = true ∧ encode cfg i = encodeF2 cfg cfg.opcodes.readBit count addr payload := by
  unfold readReadBit at h
  split at h
  · next hzero =>
    cases h
    exact ⟨decide_eq_true hcount, by rw [encode, hzero]⟩
  · cases h

theorem readReadRegister_ok {addr : Half} {count : Nat} {payload : List Byte} (hcount : count ≤ 255)
    (h : readReadRegister addr count payload = .ok i) :
    i.wellFormed cfg = true ∧ encode cfg i = encodeF2 cfg cfg.opcodes.readRegister count addr payload := by
  unfold readReadRegister at h
  split at h
  · next hzero =>
    cases h
    exact ⟨decide_eq_true hcount, by rw [encode, hzero]⟩
  · cases h

theorem readWriteRegister_ok {addr : Half} {count : Nat} {payload : List Byte} (hcount : count ≤ 255)
    (hlen : payload.length = 2 * count) (h : readWriteRegister addr count payload = .ok i) :
    i.wellFormed cfg = true ∧ encode cfg i = encodeF2 cfg cfg.opcodes.writeRegister count addr payload := by
  cases h
  refine ⟨by simpa [Instr.wellFormed] using hcount, ?_⟩
  rw [encode, packRegs_map_regAt hlen, List.length_map, List.length_range]

theorem readWriteBits_ok {addr : Half} {count : Nat} {payload : List Byte} (hcount : count ≤ 255)
    (h : readWriteBits addr count payload = .ok i) :
    i.wellFormed cfg = true ∧ encode cfg i = encodeF2 cfg cfg.opcodes.writeBits count addr payload := by
  rw [readWriteBits_eq] at h
  split at h
  · next hpack =>
    cases h
    refine ⟨wellFormed_writeBits_iff.mpr ⟨by simpa using hcount, areBits_bitsRead count payload⟩, ?_⟩
    rw [encode, bitsRead_length, hpack]
  · cases h

theorem readWriteBit_ok {b1 : Byte} {w : Half} (h : readWriteBit cfg.onePhaseLayout b1 w = .ok i) :
    i.wellFormed cfg = true ∧ encode cfg i = encodeF1 cfg cfg.opcodes.writeBit b1 w := by
  have hbyte : (b1.setWidth 16).toNat ≤ 0xFF := by
    have := b1.isLt
    simp
    omega
  have hlo : lo8 (b1.setWidth 16) = b1 := by
    apply BitVec.eq_of_toNat_eq
    simp [lo8]
  cases hlayout : cfg.onePhaseLayout with
  | addrByte | addrWord =>
    rw [hlayout] at h
    cases h
    refine ⟨by simpa [Instr.wellFormed, writeBitFits, hlayout] using hbyte, ?_⟩
    simp only [encode, encodeWriteBit, hlayout, hlo]

theorem readIdle_ok {b1 : Byte} {w : Half} (h : readIdle b1 w = .ok i) :
    i.wellFormed cfg = true ∧ encode cfg i = encodeF1 cfg cfg.opcodes.idle b1 w := by
  unfold readIdle at h
  split at h
  · next hzero =>
    obtain ⟨rfl, rfl⟩ := hzero
    cases h
    exact ⟨rfl, rfl⟩
  · cases h

end

/-- Settles O2, opcode by opcode: the form the opcode names is read back to front, and its reader inverted. -/
theorem decodedBytesAreTheFrame : Obligations.DecodedBytesAreTheFrame := by
  intro cfg bytes rest i h
  suffices hframe : ∃ used, bytes = used ++ rest ∧ IsFrameOf cfg i used by
    obtain ⟨used, hbytes, hframe⟩ := hframe
    exact ⟨hframe.wellFormed, used, hbytes, hframe.length, hframe.agree⟩
  cases bytes with
  | nil => cases h
  | cons b bs =>
    cases hcode : functionCodeOf cfg.opcodes b with
    | none => simp only [decode, hcode] at h; cases h
    | some op =>
      have hb : opcodeByte cfg.opcodes op = some b := opcodeByte_of_functionCodeOf hcode
      simp only [decode, hcode] at h
      cases op with
      | readBit =>
        obtain rfl := Option.some.inj hb
        exact isFrameOf_of_decodeTwoPhase h fun _ _ _ hcount _ => readReadBit_ok hcount
      | readRegister =>
        obtain rfl := Option.some.inj hb
        exact isFrameOf_of_decodeTwoPhase h fun _ _ _ hcount _ => readReadRegister_ok hcount
      | writeBit =>
        obtain rfl := Option.some.inj hb
        exact isFrameOf_of_decodeOnePhase h fun _ _ => readWriteBit_ok
      | writeRegister =>
        obtain rfl := Option.some.inj hb
        exact isFrameOf_of_decodeTwoPhase h fun _ _ _ => readWriteRegister_ok
      | writeBits =>
        obtain rfl := Option.some.inj hb
        exact isFrameOf_of_decodeTwoPhase h fun _ _ _ hcount _ => readWriteBits_ok hcount
      | writeCharacter | writeString | readString =>
        obtain rfl := Option.some.inj hb
        cases h
        exact ⟨[_], rfl, isFrameOf_bare rfl rfl⟩
      | idle =>
        obtain rfl := Option.some.inj hb
        exact isFrameOf_of_decodeOnePhase h fun _ _ => readIdle_ok
      | invalid => cases hb

/-- Settles O3: each word, cut at its request's length, is decoded by evaluation. -/
theorem sampleWordsDecode : Obligations.SampleWordsDecode := by
  refine ⟨?_, ?_, ?_, ?_, ?_, ?_, ?_, ?_, ?_, ?_⟩
  all_goals decide

end Sys2Proof
end

section
/-! PROOFS. The checksum unit (40_checksum R85 to R92): the fold, the generated table, and zero bytes. The generation loop is linear
in the bits it has not yet shifted down, so eight rounds of it are one table step. -/

namespace Sys2Proof.Machine

/-! The fold (40_checksum R85, R88). -/

@[simp] theorem checksum_nil (table : Vector Half 256) (seed : Half) : checksum table [] seed = seed := rfl

@[simp] theorem checksum_cons (table : Vector Half 256) (b : Byte) (bs : List Byte) (seed : Half) :
    checksum table (b :: bs) seed = checksum table bs (crcStep table seed b) := rfl

/-- 40_checksum R87. -/
theorem checksum_append (table : Vector Half 256) (a b : List Byte) (seed : Half) :
    checksum table (a ++ b) seed = checksum table b (checksum table a seed) := List.foldl_append

/-- Settles O4. -/
theorem checksumCarriesForward : Obligations.ChecksumCarriesForward := checksum_append

/-! The generation loop (40_checksum R89). -/

/-- The lowest `n` bits are 0. -/
def LowBitsZero (n : Nat) (h : Half) : Prop := ∀ k, k < n → h.getLsbD k = false

theorem LowBitsZero.shift {n : Nat} {h : Half} (hzero : LowBitsZero (n + 1) h) : LowBitsZero n (h >>> 1) := by
  intro k hk
  rw [BitVec.getLsbD_ushiftRight]
  exact hzero (1 + k) (by omega)

/-- A round looks at bit 0. -/
theorem crcRound_eq (c : Half) : crcRound c = if c.getLsbD 0 then (c >>> 1) ^^^ 0xA001#16 else c >>> 1 := by
  have hbit : c &&& 1#16 = 1#16 ↔ c.getLsbD 0 = true := by
    rw [← BitVec.twoPow_zero, BitVec.and_twoPow]
    cases c.getLsbD 0 <;> decide
  simp only [crcRound, hbit]

/-- A round only shifts what stands above bit 0. -/
theorem crcRound_xor {c h : Half} (hzero : LowBitsZero 1 h) : crcRound (c ^^^ h) = crcRound c ^^^ (h >>> 1) := by
  have hbit : (c ^^^ h).getLsbD 0 = c.getLsbD 0 := by rw [BitVec.getLsbD_xor, hzero 0 (by decide), Bool.xor_false]
  rw [crcRound_eq, crcRound_eq, hbit, BitVec.ushiftRight_xor_distrib]
  split
  · rw [BitVec.xor_assoc, BitVec.xor_comm (h >>> 1), ← BitVec.xor_assoc]
  · rfl

/-- `n` rounds only shift what stands above the lowest `n` bits. -/
theorem crcRounds_xor {n : Nat} {c h : Half} (hzero : LowBitsZero n h) :
    crcRounds n (c ^^^ h) = crcRounds n c ^^^ (h >>> n) := by
  induction n generalizing c h with
  | zero => simp [crcRounds]
  | succ n ih =>
    have hfirst : LowBitsZero 1 h := fun k hk => hzero k (by omega)
    rw [crcRounds, crcRound_xor hfirst, ih hzero.shift, crcRounds, ← BitVec.shiftRight_add, Nat.add_comm 1 n]

/-- Eight rounds shift the high byte down and send the low byte to its table entry. -/
theorem crcRounds_eight (x : Half) : crcRounds 8 x = (x >>> 8) ^^^ crcEntry (x.setWidth 8 : Byte).toNat := by
  have hsplit : x = (x.setWidth 8).setWidth 16 ^^^ ((x >>> 8) <<< 8) := by
    refine BitVec.eq_of_getLsbD_eq fun k hk => ?_
    rw [BitVec.getLsbD_xor, BitVec.getLsbD_setWidth, BitVec.getLsbD_setWidth, BitVec.getLsbD_shiftLeft,
      BitVec.getLsbD_ushiftRight]
    by_cases hk8 : k < 8
    · simp [hk, hk8]
    · simp [hk, hk8, Nat.add_sub_of_le (Nat.not_lt.mp hk8)]
  have hzero : LowBitsZero 8 ((x >>> 8) <<< 8) := fun k hk => by simp [hk]
  have hhigh : ((x >>> 8) <<< 8) >>> 8 = x >>> 8 := by
    refine BitVec.eq_of_getLsbD_eq fun k hk => ?_
    rw [BitVec.getLsbD_ushiftRight, BitVec.getLsbD_shiftLeft, BitVec.getLsbD_ushiftRight]
    by_cases hk8 : 8 + k < 16
    · simp [hk8]
    · simp [hk8, BitVec.getLsbD_of_ge x (8 + k) (by omega)]
  have hentry : crcEntry (x.setWidth 8 : Byte).toNat = crcRounds 8 ((x.setWidth 8).setWidth 16) := by
    rw [crcEntry, BitVec.ofNat_toNat]
  conv_lhs => rw [hsplit]
  rw [crcRounds_xor hzero, hhigh, hentry, BitVec.xor_comm]

/-! The listed table, row by row (40_checksum R89). -/

theorem crcRows0_eq : crcRows0 = (List.range' 0x00 32).map crcEntry := by decide
theorem crcRows1_eq : crcRows1 = (List.range' 0x20 32).map crcEntry := by decide
theorem crcRows2_eq : crcRows2 = (List.range' 0x40 32).map crcEntry := by decide
theorem crcRows3_eq : crcRows3 = (List.range' 0x60 32).map crcEntry := by decide
theorem crcRows4_eq : crcRows4 = (List.range' 0x80 32).map crcEntry := by decide
theorem crcRows5_eq : crcRows5 = (List.range' 0xA0 32).map crcEntry := by decide
theorem crcRows6_eq : crcRows6 = (List.range' 0xC0 32).map crcEntry := by decide
theorem crcRows7_eq : crcRows7 = (List.range' 0xE0 32).map crcEntry := by decide

theorem range'_append_range' (m n : Nat) : List.range' 0 m ++ List.range' m n = List.range' 0 (m + n) := by
  simpa using List.range'_append_1 (s := 0) (m := m) (n := n)

theorem defaultCrcTable_toList : defaultCrcTable.toList = (List.range 256).map crcEntry := by
  simp only [defaultCrcTable, Vector.toList_mk, crcRows0_eq, crcRows1_eq, crcRows2_eq, crcRows3_eq,
    crcRows4_eq, crcRows5_eq, crcRows6_eq, crcRows7_eq, ← List.map_append, List.range_eq_range', range'_append_range', Nat.reduceAdd]

theorem defaultCrcTable_get (i : Fin 256) : defaultCrcTable.get i = crcEntry i := by
  have h : defaultCrcTable.toList[(i : Nat)]? = some (crcEntry i) := by
    rw [defaultCrcTable_toList]
    simp
  simpa [Vector.get_eq_getElem] using h

theorem crcStep_default (c : Half) (b : Byte) : crcStep defaultCrcTable c b = crcRounds 8 (c ^^^ b.setWidth 16) := by
  have hshift : (c ^^^ b.setWidth 16) >>> 8 = c >>> 8 := by
    rw [BitVec.ushiftRight_xor_distrib]
    have hbyte : (b.setWidth 16 : Half) >>> 8 = 0#16 := by
      refine BitVec.eq_of_getLsbD_eq fun k hk => ?_
      simp
    rw [hbyte, BitVec.xor_zero]
  rw [crcRounds_eight, hshift, crcStep, defaultCrcTable_get]
  rfl

/-- Settles O5. -/
theorem tableStepIsEightRounds : Obligations.TableStepIsEightRounds := ⟨defaultCrcTable_get, crcStep_default⟩

/-! Zero bytes. -/

theorem crcStep_default_zero : crcStep defaultCrcTable 0#16 0#8 = 0#16 := by
  rw [crcStep_default]
  decide

theorem checksum_zeros (n : Nat) : checksum defaultCrcTable (zeros n) 0#16 = 0#16 := by
  induction n with
  | zero => rfl
  | succ n ih =>
    rw [zeros, List.replicate_succ, checksum_cons, crcStep_default_zero]
    exact ih

/-- Settles O6. -/
theorem checksumOfZeros : Obligations.ChecksumOfZeros :=
  ⟨checksum_nil, checksum_zeros, fun n bytes => by rw [checksum_append, checksum_zeros]⟩

end Sys2Proof.Machine
end

section
/-! PROOFS. The request port (43_sequencer R127, 42_segmentation R113): what a request does whose checks fail, whose queue is full, and
which is entered; which requests pass the checks under the reference limits; and each instruction's record spelt out. -/

namespace Sys2Proof.Machine

open Safety

/-! The frame builder writes the frames of the encoding tables. -/

theorem build2_eq_encodeF2 (cfg : Config) (op : Byte) (count : Nat) (addr : Half) (pay : List Byte) :
    build2 cfg op count addr pay = encodeF2 cfg op count addr pay := by
  cases hscope : cfg.crcScope <;> simp [build2, encodeF2, withTrailer, encodeTrailer, le16bytes, hscope]

theorem buildWriteBit_eq_encodeWriteBit (cfg : Config) (addr value : Half) :
    buildWriteBit cfg addr value = encodeWriteBit cfg addr value := by
  cases hlayout : cfg.onePhaseLayout <;>
    simp [buildWriteBit, encodeWriteBit, oneHeader, encodeF1, withTrailer, encodeTrailer, le16bytes, hlayout]

theorem buildIdle_eq_encodeF1 (cfg : Config) : buildIdle cfg = encodeF1 cfg cfg.opcodes.idle 0#8 0#16 := rfl

theorem buildWriteBits_eq_encodeF2 (cfg : Config) (addr : Half) {values : List Half} (h : AreBits values) :
    buildWriteBits cfg addr values =
      encodeF2 cfg cfg.opcodes.writeBits values.length addr (packBits (plen .writeBits values.length) values) := by
  rw [buildWriteBits, build2_eq_encodeF2]
  exact congrArg _ (orBits_zeros_eq_packBits h)

theorem plen_writeBits_singleton (v : Half) : plen .writeBits [v].length = 1 := by
  simp [plen, ceilDiv]

/-! Enqueue, case by case (43_sequencer R127). -/

section
variable {i : Instr} {tx : List Byte} {segs : List Descriptor} {s : State}

theorem enqueue_of_rejected {k : RejectKind} (h : check s.cfg i.op i.construction = some k) :
    enqueue i tx segs s = .next (s.reject k) := by
  simp only [enqueue, h]

theorem enqueue_of_full (h : check s.cfg i.op i.construction = none) (hfull : s.queueFull = true) :
    enqueue i tx segs s = .next (s.hold i) := by
  simp only [enqueue, h, hfull, if_true]

theorem enqueue_of_room (h : check s.cfg i.op i.construction = none) (hroom : s.queueFull = false) :
    enqueue i tx segs s = .next (s.accept i tx segs) := by
  simp only [enqueue, h, hroom, Bool.false_eq_true, if_false]

end

/-! The constructions an opcode admits (30_encoding R67). -/

theorem admits_readBit (a : Half) (n : Nat) : admits .readBit (.read a n) = true := rfl
theorem admits_readRegister (a : Half) (n : Nat) : admits .readRegister (.read a n) = true := rfl
theorem admits_writeBit (a v : Half) : admits .writeBit (.writeOne a v) = true := rfl
theorem admits_writeRegister_one (a v : Half) : admits .writeRegister (.writeOne a v) = true := rfl
theorem admits_writeRegister_many (a : Half) (vs : List Half) : admits .writeRegister (.writeMany a vs) = true := rfl
theorem admits_writeBits_one (a v : Half) : admits .writeBits (.writeOne a v) = true := rfl
theorem admits_writeBits_many (a : Half) (vs : List Half) : admits .writeBits (.writeMany a vs) = true := rfl

/-- A construction the opcode does not allow is the first check's rejection (42_segmentation R113). -/
theorem check_of_not_admits {cfg : Config} {op : FunctionCode} {c : Construction} (h : admits op c = false) :
    check cfg op c = some .requestUnsupported := if_pos h

/-- A request that passes is enqueued with the frame of the encoding tables and the descriptor list of its class. -/
theorem exec_of_passing {i : Instr} {s : State} (h : check s.cfg i.op i.construction = none) :
    exec i s = enqueue i (encode s.cfg i) (segsFor s.cfg i.op (reqCount i.construction)) s := by
  obtain ⟨hadmits, _, hbits, _⟩ := check_none_iff.mp h
  cases i with
  | readBit c =>
    cases c with
    | read addr count =>
      show enqueue _ (buildReadBit s.cfg addr count) _ s = _
      rw [buildReadBit, build2_eq_encodeF2]
      rfl
    | _ => cases hadmits
  | readRegister c =>
    cases c with
    | read addr count =>
      show enqueue _ (buildReadRegister s.cfg addr count) _ s = _
      rw [buildReadRegister, build2_eq_encodeF2]
      rfl
    | _ => cases hadmits
  | writeBit c =>
    cases c with
    | writeOne addr value =>
      show enqueue _ (buildWriteBit s.cfg addr value) _ s = _
      rw [buildWriteBit_eq_encodeWriteBit]
      rfl
    | _ => cases hadmits
  | writeRegister c =>
    cases c with
    | writeOne addr value =>
      show enqueue _ (buildWriteRegister s.cfg addr [value]) _ s = _
      rw [buildWriteRegister, build2_eq_encodeF2]
      rfl
    | writeMany addr values =>
      show enqueue _ (buildWriteRegister s.cfg addr values) _ s = _
      rw [buildWriteRegister, build2_eq_encodeF2]
      rfl
    | _ => cases hadmits
  | writeBits c =>
    cases c with
    | writeOne addr value =>
      have hvalue : AreBits [value] := hbits rfl
      show enqueue _ (buildWriteBits s.cfg addr [value]) _ s = _
      rw [buildWriteBits_eq_encodeF2 s.cfg addr hvalue, plen_writeBits_singleton]
      rfl
    | writeMany addr values =>
      have hvalues : AreBits values := hbits rfl
      show enqueue _ (buildWriteBits s.cfg addr values) _ s = _
      rw [buildWriteBits_eq_encodeF2 s.cfg addr hvalues]
      rfl
    | _ => cases hadmits
  | idle c =>
    cases c with
    | noOperands => rfl
    | _ => cases hadmits
  | writeCharacter c | writeString c | readString c | invalid c => cases c <;> cases hadmits

/-! What a request does. -/

section
variable {i : Instr} {s : State}

theorem exec_of_rejected {k : RejectKind} (h : check s.cfg i.op i.construction = some k) :
    exec i s = .next (s.reject k) := by
  cases i with
  | writeCharacter c | writeString c | readString c | invalid c =>
    obtain rfl := Option.some.inj (h.symm.trans (check_of_not_admits (by cases c <;> rfl)))
    rfl
  | _ => exact enqueue_of_rejected h

theorem exec_of_full (h : check s.cfg i.op i.construction = none) (hfull : s.queueFull = true) :
    exec i s = .next (s.hold i) :=
  (exec_of_passing h).trans (enqueue_of_full h hfull)

theorem exec_of_room (h : check s.cfg i.op i.construction = none) (hroom : s.queueFull = false) :
    exec i s = .next (entered s (acceptedRecord s.cfg i)) :=
  (exec_of_passing h).trans (enqueue_of_room h hroom)

/-- Every request has a next state: a rejection, a hold, or an entry (43_sequencer R127). -/
theorem exec_total (i : Instr) (s : State) :
    (∃ k, exec i s = .next (s.reject k)) ∨ exec i s = .next (s.hold i) ∨
      check s.cfg i.op i.construction = none ∧ exec i s = .next (entered s (acceptedRecord s.cfg i)) := by
  cases hcheck : check s.cfg i.op i.construction with
  | some k => exact .inl ⟨k, exec_of_rejected hcheck⟩
  | none =>
    cases hfull : s.queueFull with
    | true => exact .inr (.inl (exec_of_full hcheck hfull))
    | false => exact .inr (.inr ⟨rfl, exec_of_room hcheck hfull⟩)

end

/-- Settles O9. -/
theorem rejectionChangesNothing : Obligations.RejectionChangesNothing := fun _ _ _ h => exec_of_rejected h

/-- Settles O10. -/
theorem acceptedRequestIsEntered : Obligations.AcceptedRequestIsEntered := fun _ _ h hroom => exec_of_room h hroom

/-! Held producers (43_sequencer R148). -/

theorem resumeStep_of_full {s : State} (k : Nat) (hfull : s.queueFull = true) : resumeStep k s = .next s := by
  unfold resumeStep
  split
  · rfl
  · exact if_pos hfull

theorem resumeStep_of_room {s : State} {k : Nat} {i : Instr} (hi : s.blocked[k]? = some i)
    (hroom : s.queueFull = false) : resumeStep k s = exec i { s with blocked := s.blocked.eraseIdx k } := by
  simp only [resumeStep, hi, hroom, Bool.false_eq_true, if_false]

/-- Settles O11: the three clauses are a hold, a turn at a full queue and a turn with room. -/
theorem fullQueueHoldsProducer : Obligations.FullQueueHoldsProducer := by
  refine ⟨fun i s h hfull => exec_of_full h hfull, fun s k rest hsched hfull => ?_,
    fun s k i rest hsched hi hroom => ?_⟩
  · exact (step_of_sched hsched).trans (resumeStep_of_full k hfull)
  · exact (step_of_sched hsched).trans (resumeStep_of_room hi hroom)

/-- Settles O18, by the three things a request can do. -/
theorem requestFrame : Obligations.RequestFrame := by
  intro i s s' h
  rcases exec_cases h with ⟨k, rfl⟩ | ⟨_, _, rfl⟩ | ⟨_, _, tx, segs, rfl⟩
  · simp
  · simp
  · simp only [State.accept_msgs]
    simp +contextual [byteAt_put_other, memGet_put_other]

/-! Which requests pass the checks. -/

/-- A request is too large when it passes the first four checks and fails one of the last three (42_segmentation R113). -/
theorem check_tooLarge_iff {cfg : Config} {op : FunctionCode} {c : Construction} :
    check cfg op c = some .requestTooLarge ↔
      admits op c = true ∧ (op = .idle ∨ reqCount c ≠ 0) ∧
      (isBitWrite op = true → ∀ v ∈ reqValues c, v.toNat ≤ 1) ∧
      (op = .writeBit → cfg.onePhaseLayout = .addrByte → (reqAddr c).toNat ≤ 0xFF) ∧
      (op = .writeRegister ∧ cfg.maxWriteRegs < reqCount c ∨
        isTwoPhase op = true ∧ (255 < reqCount c ∨ cfg.maxDesc < ndesc cfg (plen op (reqCount c)))) := by
  have hany : (reqValues c).any (fun v => decide (1 < v.toNat)) = true ↔
      ¬ ∀ v ∈ reqValues c, v.toNat ≤ 1 := by simp
  unfold check
  repeat' split
  all_goals simp only [hany] at *
  all_goals simp_all
  all_goals grind

section
variable {cfg : Config} (href : RefLimits cfg)
include href

/-- Seven descriptors of 64 bytes carry a payload of 256 bytes (42_segmentation R121). -/
theorem ndesc_le_maxDesc_iff (p : Nat) : ndesc cfg p ≤ cfg.maxDesc ↔ p ≤ 256 := by
  rw [ndesc, href.chunk, href.desc, ceilDiv]
  omega

theorem maxDesc_lt_ndesc_iff (p : Nat) : cfg.maxDesc < ndesc cfg p ↔ 256 < p := by
  rw [← not_le, ndesc_le_maxDesc_iff href, not_le]

/-- Up to 255 bits never need more descriptors than there are (42_segmentation R121). -/
theorem ndesc_bits_le_maxDesc {n : Nat} (h : n ≤ 255) : ndesc cfg (ceilDiv n 8) ≤ cfg.maxDesc := by
  rw [ndesc_le_maxDesc_iff href, ceilDiv]
  omega

/-! The checks of each opcode under the reference limits (42_segmentation R121, R124, R125). -/

theorem check_readBit_none_iff {a : Half} {n : Nat} :
    check cfg .readBit (.read a n) = none ↔ 1 ≤ n ∧ n ≤ 255 := by
  have hfits : n ≤ 255 → ndesc cfg (ceilDiv n 8) ≤ cfg.maxDesc := ndesc_bits_le_maxDesc href
  simp [check_none_iff, admits_readBit, isBitWrite, isTwoPhase, reqCount, plen]
  omega

theorem check_readRegister_none_iff {a : Half} {n : Nat} :
    check cfg .readRegister (.read a n) = none ↔ 1 ≤ n ∧ n ≤ 128 := by
  simp [check_none_iff, admits_readRegister, isBitWrite, isTwoPhase, reqCount, plen, ndesc_le_maxDesc_iff href]
  omega

theorem check_writeRegister_one_none (a v : Half) : check cfg .writeRegister (.writeOne a v) = none := by
  simp [check_none_iff, admits_writeRegister_one, isBitWrite, isTwoPhase, reqCount, plen, href.regs,
    ndesc_le_maxDesc_iff href]

theorem check_writeRegister_many_none_iff {a : Half} {vs : List Half} :
    check cfg .writeRegister (.writeMany a vs) = none ↔ 1 ≤ vs.length ∧ vs.length ≤ 126 := by
  simp [check_none_iff, admits_writeRegister_many, isBitWrite, isTwoPhase, reqCount, plen, href.regs,
    ndesc_le_maxDesc_iff href, -List.length_eq_zero_iff]
  omega

theorem check_writeBits_one_none_iff {a v : Half} :
    check cfg .writeBits (.writeOne a v) = none ↔ v.toNat ≤ 1 := by
  have hfits : ndesc cfg (ceilDiv 1 8) ≤ cfg.maxDesc := ndesc_bits_le_maxDesc href (by decide)
  simp [check_none_iff, admits_writeBits_one, isBitWrite, isTwoPhase, reqCount, reqValues, plen, hfits]

theorem check_writeBits_many_none_iff {a : Half} {vs : List Half} :
    check cfg .writeBits (.writeMany a vs) = none ↔
      1 ≤ vs.length ∧ vs.length ≤ 255 ∧ ∀ v ∈ vs, v.toNat ≤ 1 := by
  have hfits : vs.length ≤ 255 → ndesc cfg (ceilDiv vs.length 8) ≤ cfg.maxDesc := ndesc_bits_le_maxDesc href
  simp [check_none_iff, admits_writeBits_many, isBitWrite, isTwoPhase, reqCount, reqValues, plen,
    -List.length_eq_zero_iff, Nat.one_le_iff_ne_zero]
  tauto

theorem check_readBit_tooLarge_iff {a : Half} {n : Nat} :
    check cfg .readBit (.read a n) = some .requestTooLarge ↔ 256 ≤ n := by
  have hfits : n ≤ 255 → ndesc cfg (ceilDiv n 8) ≤ cfg.maxDesc := ndesc_bits_le_maxDesc href
  simp [check_tooLarge_iff, admits_readBit, isBitWrite, isTwoPhase, reqCount, plen]
  omega

theorem check_readRegister_tooLarge_iff {a : Half} {n : Nat} :
    check cfg .readRegister (.read a n) = some .requestTooLarge ↔ 129 ≤ n := by
  simp [check_tooLarge_iff, admits_readRegister, isBitWrite, isTwoPhase, reqCount, plen, maxDesc_lt_ndesc_iff href]
  omega

theorem check_writeRegister_many_tooLarge_iff {a : Half} {vs : List Half} :
    check cfg .writeRegister (.writeMany a vs) = some .requestTooLarge ↔ 127 ≤ vs.length := by
  simp [check_tooLarge_iff, admits_writeRegister_many, isBitWrite, isTwoPhase, reqCount, plen, href.regs,
    maxDesc_lt_ndesc_iff href, -List.length_eq_zero_iff]
  omega

theorem check_writeBits_many_tooLarge_iff {a : Half} {vs : List Half} :
    check cfg .writeBits (.writeMany a vs) = some .requestTooLarge ↔ 256 ≤ vs.length ∧ ∀ v ∈ vs, v.toNat ≤ 1 := by
  have hfits : vs.length ≤ 255 → ndesc cfg (ceilDiv vs.length 8) ≤ cfg.maxDesc := ndesc_bits_le_maxDesc href
  have hlarge : vs.length ≠ 0 ∧ (255 < vs.length ∨ cfg.maxDesc < ndesc cfg (ceilDiv vs.length 8)) ↔ 256 ≤ vs.length := by
    omega
  simp [check_tooLarge_iff, admits_writeBits_many, isBitWrite, isTwoPhase, reqCount, reqValues, plen,
    -List.length_eq_zero_iff, ← hlarge]
  tauto

end

/-- WriteBit has no payload, so no limit of the configuration bears on it (42_segmentation R113). -/
theorem check_writeBit_none_iff {cfg : Config} {a v : Half} :
    check cfg .writeBit (.writeOne a v) = none ↔
      v.toNat ≤ 1 ∧ (cfg.onePhaseLayout = .addrByte → a.toNat ≤ 0xFF) := by
  simp [check_none_iff, admits_writeBit, isBitWrite, isTwoPhase, reqCount, reqValues, reqAddr]

theorem check_idle_none (cfg : Config) : check cfg .idle .noOperands = none := rfl

/-- A one-phase request is never too large: only a payload can be. -/
theorem isTwoPhase_of_tooLarge {cfg : Config} {op : FunctionCode} {c : Construction}
    (h : check cfg op c = some .requestTooLarge) : isTwoPhase op = true := by
  obtain ⟨_, _, _, _, ⟨rfl, _⟩ | ⟨htwo, _⟩⟩ := check_tooLarge_iff.mp h
  · rfl
  · exact htwo

/-- Settles O7: the checks of each opcode and each construction it admits. -/
theorem acceptedRequestsExactly : Obligations.AcceptedRequestsExactly := by
  intro cfg i href
  constructor
  · intro h
    obtain ⟨hadmits, _⟩ := check_none_iff.mp h
    cases i with
    | readBit c =>
      cases c with
      | read a n => exact .inl ⟨a, n, rfl, (check_readBit_none_iff href).mp h⟩
      | _ => cases hadmits
    | readRegister c =>
      cases c with
      | read a n => exact .inr (.inl ⟨a, n, rfl, (check_readRegister_none_iff href).mp h⟩)
      | _ => cases hadmits
    | writeBit c =>
      cases c with
      | writeOne a v => exact .inr (.inr (.inl ⟨a, v, rfl, check_writeBit_none_iff.mp h⟩))
      | _ => cases hadmits
    | writeRegister c =>
      cases c with
      | writeOne a v => exact .inr (.inr (.inr (.inl ⟨a, v, rfl⟩)))
      | writeMany a vs =>
        exact .inr (.inr (.inr (.inr (.inl ⟨a, vs, rfl, (check_writeRegister_many_none_iff href).mp h⟩))))
      | _ => cases hadmits
    | writeBits c =>
      cases c with
      | writeOne a v =>
        exact .inr (.inr (.inr (.inr (.inr (.inl ⟨a, v, rfl, (check_writeBits_one_none_iff href).mp h⟩)))))
      | writeMany a vs =>
        exact .inr (.inr (.inr (.inr (.inr (.inr (.inl ⟨a, vs, rfl, (check_writeBits_many_none_iff href).mp h⟩))))))
      | _ => cases hadmits
    | idle c =>
      cases c with
      | noOperands => exact .inr (.inr (.inr (.inr (.inr (.inr (.inr rfl))))))
      | _ => cases hadmits
    | writeCharacter c | writeString c | readString c | invalid c => cases c <;> cases hadmits
  · rintro (⟨a, n, rfl, h⟩ | ⟨a, n, rfl, h⟩ | ⟨a, v, rfl, h⟩ | ⟨a, v, rfl⟩ | ⟨a, vs, rfl, h⟩ | ⟨a, v, rfl, h⟩ |
      ⟨a, vs, rfl, h⟩ | rfl)
    · exact (check_readBit_none_iff href).mpr h
    · exact (check_readRegister_none_iff href).mpr h
    · exact check_writeBit_none_iff.mpr h
    · exact check_writeRegister_one_none href a v
    · exact (check_writeRegister_many_none_iff href).mpr h
    · exact (check_writeBits_one_none_iff href).mpr h
    · exact (check_writeBits_many_none_iff href).mpr h
    · exact check_idle_none cfg

/-- Settles O8: the opcodes with a payload, and the constructions they allow; a single value always fits. -/
theorem tooLargeRequestsExactly : Obligations.TooLargeRequestsExactly := by
  intro cfg i href
  constructor
  · intro h
    obtain ⟨hadmits, _, hbits, _⟩ := check_tooLarge_iff.mp h
    have htwo : isTwoPhase i.op = true := isTwoPhase_of_tooLarge h
    cases i with
    | readBit c =>
      cases c with
      | read a n => exact .inl ⟨a, n, rfl, (check_readBit_tooLarge_iff href).mp h⟩
      | _ => cases hadmits
    | readRegister c =>
      cases c with
      | read a n => exact .inr (.inl ⟨a, n, rfl, (check_readRegister_tooLarge_iff href).mp h⟩)
      | _ => cases hadmits
    | writeRegister c =>
      cases c with
      | writeOne a v => cases (check_writeRegister_one_none href a v).symm.trans h
      | writeMany a vs =>
        exact .inr (.inr (.inl ⟨a, vs, rfl, (check_writeRegister_many_tooLarge_iff href).mp h⟩))
      | _ => cases hadmits
    | writeBits c =>
      cases c with
      | writeOne a v =>
        have hv : v.toNat ≤ 1 := hbits rfl v List.mem_cons_self
        cases ((check_writeBits_one_none_iff href).mpr hv).symm.trans h
      | writeMany a vs => exact .inr (.inr (.inr ⟨a, vs, rfl, (check_writeBits_many_tooLarge_iff href).mp h⟩))
      | _ => cases hadmits
    | _ => cases htwo
  · rintro (⟨a, n, rfl, h⟩ | ⟨a, n, rfl, h⟩ | ⟨a, vs, rfl, h⟩ | ⟨a, vs, rfl, h⟩)
    · exact (check_readBit_tooLarge_iff href).mpr h
    · exact (check_readRegister_tooLarge_iff href).mpr h
    · exact (check_writeRegister_many_tooLarge_iff href).mpr h
    · exact (check_writeBits_many_tooLarge_iff href).mpr h

/-! Each instruction's record spelt out. -/

/-- Settles O12. -/
theorem readsAreEntered : Obligations.ReadsAreEntered := by
  intro s addr count href hpos hroom
  refine ⟨fun hmax => ?_, fun hmax => ?_⟩
  · exact exec_of_room (i := .readBit (.read addr count)) ((check_readBit_none_iff href).mpr ⟨hpos, hmax⟩) hroom
  · exact exec_of_room (i := .readRegister (.read addr count)) ((check_readRegister_none_iff href).mpr ⟨hpos, hmax⟩)
      hroom

theorem encodeWriteBit_of_addrByte {cfg : Config} (h : cfg.onePhaseLayout = .addrByte) (addr value : Half) :
    encodeWriteBit cfg addr value = encodeF1 cfg cfg.opcodes.writeBit (lo8 addr) value := by
  simp only [encodeWriteBit, h]

theorem encodeWriteBit_of_addrWord {cfg : Config} (h : cfg.onePhaseLayout = .addrWord) (addr value : Half) :
    encodeWriteBit cfg addr value = encodeF1 cfg cfg.opcodes.writeBit (lo8 value) addr := by
  simp only [encodeWriteBit, h]

/-- Settles O13, layout by layout. -/
theorem writeBitIsEntered : Obligations.WriteBitIsEntered := by
  intro s addr value hbit hroom
  refine ⟨fun hlayout haddr => ?_, fun hlayout => ?_⟩
  · rw [← encodeWriteBit_of_addrByte hlayout]
    exact exec_of_room (i := .writeBit (.writeOne addr value)) (check_writeBit_none_iff.mpr ⟨hbit, fun _ => haddr⟩) hroom
  · rw [← encodeWriteBit_of_addrWord hlayout]
    refine exec_of_room (i := .writeBit (.writeOne addr value)) (check_writeBit_none_iff.mpr ⟨hbit, fun hbyte => ?_⟩) hroom
    cases hlayout.symm.trans hbyte

/-- Settles O14: the one-value form is entered with the same record. -/
theorem writeRegisterIsEntered : Obligations.WriteRegisterIsEntered := by
  intro s addr href hroom
  have hmany : ∀ values : List Half, 1 ≤ values.length → values.length ≤ 126 →
      exec (.writeRegister (.writeMany addr values)) s =
        .next (entered s (acceptedRecord s.cfg (.writeRegister (.writeMany addr values)))) := fun values hpos hmax =>
    exec_of_room ((check_writeRegister_many_none_iff href).mpr ⟨hpos, hmax⟩) hroom
  refine ⟨hmany, fun value => ?_⟩
  have hone := exec_of_room (i := .writeRegister (.writeOne addr value)) (check_writeRegister_one_none href addr value) hroom
  exact hone.trans (hmany [value] le_rfl (by simp)).symm

/-- The one-bit form is recorded as the list form: the same operands and the same one payload byte (30_encoding R63). -/
theorem acceptedRecord_writeBits_one (cfg : Config) (addr value : Half) :
    acceptedRecord cfg (.writeBits (.writeOne addr value)) = acceptedRecord cfg (.writeBits (.writeMany addr [value])) := by
  simp only [acceptedRecord, encode, plen_writeBits_singleton]
  rfl

/-- Settles O15: the payload is the packing of the bits. -/
theorem writeBitsIsEntered : Obligations.WriteBitsIsEntered := by
  intro s addr href hroom
  have hmany : ∀ values : List Half, 1 ≤ values.length → values.length ≤ 255 → AreBits values →
      exec (.writeBits (.writeMany addr values)) s =
        .next (entered s (acceptedRecord s.cfg (.writeBits (.writeMany addr values)))) := fun values hpos hmax hbits =>
    exec_of_room ((check_writeBits_many_none_iff href).mpr ⟨hpos, hmax, hbits⟩) hroom
  refine ⟨fun values hpos hmax hbits => ?_, fun value hbit => ?_⟩
  · refine ⟨packBits (ceilDiv values.length 8) values, packBits_length .., fun k hk => ?_, hmany values hpos hmax hbits⟩
    rw [packBits_length] at hk
    rw [bitAt_packBits hbits]
    split <;> simp [*]
  · have hone := exec_of_room (i := .writeBits (.writeOne addr value)) ((check_writeBits_one_none_iff href).mpr hbit) hroom
    rw [hone, acceptedRecord_writeBits_one]
    exact (hmany [value] le_rfl (by simp) (by simpa [AreBits] using hbit)).symm

/-- Settles O16. -/
theorem idleIsEntered : Obligations.IdleIsEntered := fun s hroom =>
  exec_of_room (i := .idle .noOperands) (check_idle_none s.cfg) hroom

end Sys2Proof.Machine
end

section
/-! PROOFS. Descriptor lists (42_segmentation R114 to R122) and frames (41_framing R97, R98, R110): the chunk loop in closed form, the
tiling of a frame by its list, what a tiling list sends and receives, and the length and trailer of every accepted frame. -/

namespace Sys2Proof.Machine

open Safety

/-! The chunk loop (42_segmentation R117, R118). -/

section
variable {limit p : Nat}

theorem lt_ceilDiv_iff (hlimit : 0 < limit) {j : Nat} : j < ceilDiv p limit ↔ limit * j < p := by
  rw [ceilDiv, Nat.lt_iff_add_one_le, Nat.le_div_iff_mul_le hlimit, Nat.add_mul, Nat.mul_comm j]
  omega

/-- The j-th chunk: full but for the last. -/
def chunkAt (limit p j : Nat) : Descriptor :=
  ⟨0, 4 + limit * j, 4 + limit * j,
    if j + 1 < ceilDiv p limit then limit else p - limit * (ceilDiv p limit - 1)⟩

theorem chunkAt_eq (hlimit : 0 < limit) {j : Nat} (hj : limit * j < p) :
    chunkAt limit p j = ⟨0, 4 + limit * j, 4 + limit * j, min limit (p - limit * j)⟩ := by
  have hlast : j < ceilDiv p limit := (lt_ceilDiv_iff hlimit).mpr hj
  have hmore : j + 1 < ceilDiv p limit ↔ limit * (j + 1) < p := lt_ceilDiv_iff hlimit
  rw [Nat.mul_succ] at hmore
  rw [chunkAt]
  split_ifs with h
  · rw [Nat.min_eq_left (by have := hmore.mp h; omega)]
  · have hend : ceilDiv p limit - 1 = j := by omega
    have hshort : ¬ limit * j + limit < p := mt hmore.mpr h
    rw [hend, Nat.min_eq_right (by omega)]

theorem payloadChunks_cons {fuel o : Nat} (h : o < p) :
    payloadChunks limit p (fuel + 1) o =
      ⟨0, 4 + o, 4 + o, min limit (p - o)⟩ :: payloadChunks limit p fuel (o + min limit (p - o)) := if_pos h

theorem payloadChunks_of_le {fuel o : Nat} (h : p ≤ o) : payloadChunks limit p fuel o = [] := by
  cases fuel with
  | zero => rfl
  | succ fuel => exact if_neg (Nat.not_lt.mpr h)

/-- After `j` turns the loop stands at `limit * j`, or at the end of the payload, and has the chunks from the j-th on to give. -/
theorem payloadChunks_eq_map (hlimit : 0 < limit) (fuel j : Nat) (hfuel : p ≤ limit * j + fuel) :
    payloadChunks limit p fuel (min p (limit * j)) =
      (List.range' j (ceilDiv p limit - j)).map (chunkAt limit p) := by
  induction fuel generalizing j with
  | zero =>
    have hdone : ¬ j < ceilDiv p limit := mt (lt_ceilDiv_iff hlimit).mp (by omega)
    rw [payloadChunks_of_le (by omega), Nat.sub_eq_zero_of_le (Nat.not_lt.mp hdone)]
    rfl
  | succ fuel ih =>
    by_cases hj : limit * j < p
    · have hmore : ceilDiv p limit - j = ceilDiv p limit - (j + 1) + 1 := by
        have := (lt_ceilDiv_iff hlimit).mpr hj
        omega
      have hnext : limit * j + min limit (p - limit * j) = min p (limit * (j + 1)) := by
        rw [Nat.mul_succ]
        omega
      rw [Nat.min_eq_right hj.le, payloadChunks_cons hj, hnext, hmore, List.range'_succ, List.map_cons,
        chunkAt_eq hlimit hj, ih (j + 1) (by rw [Nat.mul_succ]; omega)]
    · have hdone : ¬ j < ceilDiv p limit := mt (lt_ceilDiv_iff hlimit).mp hj
      rw [payloadChunks_of_le (by omega), Nat.sub_eq_zero_of_le (Nat.not_lt.mp hdone)]
      rfl

theorem payloadChunks_eq_range_map (hlimit : 0 < limit) :
    payloadChunks limit p p 0 = (List.range (ceilDiv p limit)).map (chunkAt limit p) := by
  simpa [List.range_eq_range'] using payloadChunks_eq_map hlimit p 0 (p := p) (by omega)

/-- The last chunk is not empty and no longer than the others. -/
theorem last_chunk_bounds (hlimit : 0 < limit) (hp : 0 < p) :
    1 ≤ p - limit * (ceilDiv p limit - 1) ∧ p - limit * (ceilDiv p limit - 1) ≤ limit := by
  have hpos : 0 < ceilDiv p limit := (lt_ceilDiv_iff hlimit).mpr (by omega)
  obtain ⟨k, hk⟩ := Nat.exists_eq_add_of_lt hpos
  have hlast : limit * k < p := (lt_ceilDiv_iff hlimit).mp (by omega)
  have hend : ¬ limit * (k + 1) < p := mt (lt_ceilDiv_iff hlimit).mpr (by omega)
  rw [Nat.mul_succ] at hend
  have hpred : ceilDiv p limit - 1 = k := by omega
  rw [hpred]
  omega

/-- What every chunk of the loop is: undelayed, within the limit, at one offset in both buffers. -/
theorem payloadChunks_mem {fuel o : Nat} {d : Descriptor} (h : d ∈ payloadChunks limit p fuel o) :
    d.delayMicros = 0 ∧ d.length ≤ limit ∧ d.rxOffset = d.txOffset := by
  induction fuel generalizing o with
  | zero => cases h
  | succ fuel ih =>
    by_cases ho : o < p
    · rw [payloadChunks_cons ho] at h
      rcases List.mem_cons.mp h with rfl | h
      · exact ⟨rfl, Nat.min_le_left .., rfl⟩
      · exact ih h
    · rw [payloadChunks_of_le (Nat.not_lt.mp ho)] at h
      cases h

end

/-! Tilings (42_segmentation R122). -/

theorem tiles_append {a b : List Descriptor} {o m e : Nat} (ha : tiles o a m) (hb : tiles m b e) :
    tiles o (a ++ b) e := by
  induction a generalizing o with
  | nil => exact (show o = m from ha) ▸ hb
  | cons d ds ih => exact ⟨ha.1, ih ha.2⟩

/-- A tiling list sums to the stretch it tiles. -/
theorem sum_length_of_tiles {ds : List Descriptor} {o e : Nat} (h : tiles o ds e) :
    o + (ds.map Descriptor.length).sum = e := by
  induction ds generalizing o with
  | nil => exact h
  | cons d ds ih =>
    have := ih h.2
    simp only [List.map_cons, List.sum_cons]
    omega

theorem tiles_payloadChunks {limit p : Nat} (hlimit : 0 < limit) (fuel o : Nat) (ho : o ≤ p) (hfuel : p ≤ o + fuel) :
    tiles (4 + o) (payloadChunks limit p fuel o) (4 + p) := by
  induction fuel generalizing o with
  | zero => exact congrArg (4 + ·) (Nat.le_antisymm ho hfuel)
  | succ fuel ih =>
    rcases Nat.lt_or_ge o p with hlt | hge
    · rw [payloadChunks_cons hlt]
      have hrest := ih (o + min limit (p - o)) (by omega) (by omega)
      rw [← Nat.add_assoc] at hrest
      exact ⟨rfl, hrest⟩
    · rw [payloadChunks_of_le hge]
      exact congrArg (4 + ·) (Nat.le_antisymm ho hge)

theorem segs2_length (cfg : Config) (p : Nat) (hlimit : 0 < cfg.chunkLimit) : (segs2 cfg p).length = ndesc cfg p := by
  simp [segs2, ndesc, payloadChunks_eq_range_map hlimit]
  omega

/-- Settles O20, from the closed form of the loop. -/
theorem payloadChunksClosedForm : Obligations.PayloadChunksClosedForm := by
  intro cfg p hlimit
  refine ⟨payloadChunks_eq_range_map hlimit, last_chunk_bounds hlimit, ?_, segs2_length cfg p hlimit, rfl⟩
  exact tiles_payloadChunks hlimit p 0 (Nat.zero_le p) (by omega)

/-! The list of a class of requests (42_segmentation R114, R116, R117). -/

theorem segsFor_of_twoPhase {op : FunctionCode} (h : isTwoPhase op = true) (cfg : Config) (count : Nat) :
    segsFor cfg op count = segs2 cfg (plen op count) := if_pos h

theorem segsFor_of_onePhase {op : FunctionCode} (h : isTwoPhase op = false) (cfg : Config) (count : Nat) :
    segsFor cfg op count = segs1 cfg := if_neg (Bool.eq_false_iff.mp h)

theorem flen_of_twoPhase {op : FunctionCode} (h : isTwoPhase op = true) (count : Nat) :
    flen op count = 4 + plen op count + 2 := if_pos h

theorem flen_of_onePhase {op : FunctionCode} (h : isTwoPhase op = false) (count : Nat) : flen op count = 6 :=
  if_neg (Bool.eq_false_iff.mp h)

/-- Segment 0 is the settling slot. -/
theorem segsFor_eq_cons (cfg : Config) (op : FunctionCode) (count : Nat) :
    segsFor cfg op count = settleSlot cfg :: (segsFor cfg op count).tail := by
  cases htwo : isTwoPhase op with
  | true => rw [segsFor_of_twoPhase htwo]; rfl
  | false => rw [segsFor_of_onePhase htwo]; rfl

/-- The data segments tile the frame. -/
theorem tiles_segsFor_tail {cfg : Config} (hlimit : 0 < cfg.chunkLimit) (op : FunctionCode) (count : Nat) :
    tiles 0 (segsFor cfg op count).tail (flen op count) := by
  cases htwo : isTwoPhase op with
  | true =>
    rw [segsFor_of_twoPhase htwo, flen_of_twoPhase htwo]
    refine ⟨rfl, tiles_append (m := 4 + plen op count) ?_ ⟨rfl, rfl⟩⟩
    exact tiles_payloadChunks hlimit (plen op count) 0 (Nat.zero_le _) (by omega)
  | false =>
    rw [segsFor_of_onePhase htwo, flen_of_onePhase htwo]
    exact ⟨rfl, rfl⟩

/-- A data segment is undelayed, at one offset in both buffers, and within the chunk limit or the six bytes of a short frame. -/
theorem segsFor_tail_mem {cfg : Config} {op : FunctionCode} {count : Nat} {d : Descriptor}
    (h : d ∈ (segsFor cfg op count).tail) :
    d.delayMicros = 0 ∧ (d.length ≤ cfg.chunkLimit ∨ d.length ≤ 6) ∧ d.rxOffset = d.txOffset := by
  cases htwo : isTwoPhase op with
  | true =>
    rw [segsFor_of_twoPhase htwo, segs2, List.append_assoc, List.cons_append, List.cons_append, List.tail_cons,
      List.nil_append, List.mem_cons, List.mem_append, List.mem_singleton] at h
    rcases h with rfl | hchunk | rfl
    · exact ⟨rfl, .inr (by decide), rfl⟩
    · obtain ⟨hdelay, hlen, hoffset⟩ := payloadChunks_mem hchunk
      exact ⟨hdelay, .inl hlen, hoffset⟩
    · exact ⟨rfl, .inr (show 2 ≤ 6 by decide), rfl⟩
  | false =>
    rw [segsFor_of_onePhase htwo, segs1, List.tail_cons, List.mem_singleton] at h
    subst h
    exact ⟨rfl, .inr le_rfl, rfl⟩

/-! What a tiling list puts on the bus and brings back (20_memory R41, 43_sequencer R128). -/

theorem wireBytes_of_tiles {ds : List Descriptor} {o e : Nat} (h : tiles o ds e) (tx : List Byte) :
    wireBytes ds tx = memRead tx o (e - o) := by
  induction ds generalizing o with
  | nil =>
    obtain rfl : o = e := h
    simp [wireBytes, memRead]
  | cons d ds ih =>
    obtain ⟨hoffset, htail⟩ := h
    have hsum := sum_length_of_tiles htail
    have hlen : e - o = d.length + (e - (o + d.length)) := by omega
    have ih' : ds.flatMap (fun d => memRead tx d.txOffset d.length) = _ := ih htail
    rw [wireBytes, List.flatMap_cons, ih', hoffset, hlen, memRead, memRead, memRead, List.take_add, List.drop_drop]

theorem placeReceived_of_tiles {ds : List Descriptor} {o e : Nat} (h : tiles o ds e)
    (hoffsets : ∀ d ∈ ds, d.rxOffset = d.txOffset) {stream rx : List Byte} (hstream : stream.length = e - o)
    (hrx : rx.length = e) : placeReceived ds stream rx = rx.take o ++ stream := by
  induction ds generalizing o stream rx with
  | nil =>
    obtain rfl : o = e := h
    have hempty : stream = [] := List.length_eq_zero_iff.mp (by omega)
    simp [placeReceived, hempty, ← hrx]
  | cons d ds ih =>
    obtain ⟨hoffset, htail⟩ := h
    have hsum := sum_length_of_tiles htail
    have htake : (stream.take d.length).length = d.length := by rw [List.length_take]; omega
    have hfirst : (rx.take o ++ stream.take d.length).length = o + d.length := by
      rw [List.length_append, List.length_take, htake]
      omega
    rw [placeReceived, hoffsets d List.mem_cons_self, hoffset, memWrite, htake,
      ih htail (fun d' hd' => hoffsets d' (List.mem_cons_of_mem d hd')) (by rw [List.length_drop]; omega)
        (by rw [List.length_append, hfirst, List.length_drop]; omega),
      ← hfirst, List.take_left, List.append_assoc, List.take_append_drop]

/-! The frame of every accepted request. -/

section
variable {cfg : Config} {i : Instr}

/-- A two-phase request that passes is encoded as an F2 frame around a payload of `plen` bytes (30_encoding R70, R71). -/
theorem encode_of_twoPhase (h : check cfg i.op i.construction = none) (htwo : isTwoPhase i.op = true) :
    ∃ op payload, opcodeByte cfg.opcodes i.op = some op ∧ payload.length = plen i.op (reqCount i.construction) ∧
      encode cfg i = encodeF2 cfg op (reqCount i.construction) (reqAddr i.construction) payload := by
  obtain ⟨hadmits, _⟩ := check_none_iff.mp h
  cases i with
  | readBit c =>
    cases c with
    | read addr count => exact ⟨_, _, rfl, zeros_length _, rfl⟩
    | _ => cases hadmits
  | readRegister c =>
    cases c with
    | read addr count => exact ⟨_, _, rfl, zeros_length _, rfl⟩
    | _ => cases hadmits
  | writeRegister c =>
    cases c with
    | writeOne addr value => exact ⟨_, _, rfl, packRegs_length [value], rfl⟩
    | writeMany addr values => exact ⟨_, _, rfl, packRegs_length values, rfl⟩
    | _ => cases hadmits
  | writeBits c =>
    cases c with
    | writeOne addr value =>
      exact ⟨_, _, rfl, (packBits_length 1 [value]).trans (plen_writeBits_singleton value).symm, rfl⟩
    | writeMany addr values => exact ⟨_, _, rfl, packBits_length _ values, rfl⟩
    | _ => cases hadmits
  | _ => cases htwo

/-- A one-phase request that passes is encoded as an F1 frame (30_encoding R68, R69). -/
theorem encode_of_onePhase (h : check cfg i.op i.construction = none) (hone : isTwoPhase i.op = false) :
    ∃ op b1 w, opcodeByte cfg.opcodes i.op = some op ∧ encode cfg i = encodeF1 cfg op b1 w := by
  obtain ⟨hadmits, _⟩ := check_none_iff.mp h
  cases i with
  | writeBit c =>
    cases c with
    | writeOne addr value =>
      cases hlayout : cfg.onePhaseLayout with
      | addrByte => exact ⟨_, _, _, rfl, encodeWriteBit_of_addrByte hlayout addr value⟩
      | addrWord => exact ⟨_, _, _, rfl, encodeWriteBit_of_addrWord hlayout addr value⟩
    | _ => cases hadmits
  | idle c =>
    cases c with
    | noOperands => exact ⟨_, _, _, rfl, rfl⟩
    | _ => cases hadmits
  | readBit c | readRegister c | writeRegister c | writeBits c => cases hone
  | writeCharacter c | writeString c | readString c | invalid c => cases c <;> cases hadmits

theorem encode_length (h : check cfg i.op i.construction = none) :
    (encode cfg i).length = flen i.op (reqCount i.construction) := by
  cases htwo : isTwoPhase i.op with
  | true =>
    obtain ⟨op, payload, _, hlen, henc⟩ := encode_of_twoPhase h htwo
    rw [henc, encodeF2_eq, flen_of_twoPhase htwo, ← hlen]
    simp
    omega
  | false =>
    obtain ⟨op, b1, w, _, henc⟩ := encode_of_onePhase h htwo
    rw [henc, flen_of_onePhase htwo]
    rfl

/-- The bytes of a frame its checksum covers (30_encoding R72, 41_framing R97, R98). -/
def coveredLength (cfg : Config) (op : FunctionCode) (count : Nat) : Nat :=
  if isTwoPhase op = true ∧ cfg.crcScope = .headerPlusPayload then 4 + plen op count else 4

/-- A frame is its body and the checksum of the covered stretch of it, low byte first. -/
theorem encode_eq_body_trailer (h : check cfg i.op i.construction = none) :
    ∃ body : List Byte, body.length + 2 = flen i.op (reqCount i.construction) ∧
      coveredLength cfg i.op (reqCount i.construction) ≤ body.length ∧
      encode cfg i =
        body ++ le16bytes (frameChecksum cfg (body.take (coveredLength cfg i.op (reqCount i.construction)))) := by
  cases htwo : isTwoPhase i.op with
  | true =>
    obtain ⟨op, payload, _, hlen, henc⟩ := encode_of_twoPhase h htwo
    have hbody : ([op, BitVec.ofNat 8 (reqCount i.construction), lo8 (reqAddr i.construction),
        hi8 (reqAddr i.construction)] ++ payload).length = 4 + plen i.op (reqCount i.construction) := by
      simp [hlen]; omega
    refine ⟨_, by rw [hbody, flen_of_twoPhase htwo], ?_, henc.trans ?_⟩
    · rw [hbody, coveredLength]
      split <;> omega
    · rw [encodeF2_eq, coveredF2, coveredLength]
      congr 3
      by_cases hscope : cfg.crcScope = .headerPlusPayload
      · rw [if_pos hscope, if_pos ⟨htwo, hscope⟩, ← hbody, List.take_length]
      · rw [if_neg hscope, if_neg (fun hboth => hscope hboth.2)]
        rfl
  | false =>
    obtain ⟨op, b1, w, _, henc⟩ := encode_of_onePhase h htwo
    have hcovered : coveredLength cfg i.op (reqCount i.construction) = 4 := if_neg (by simp [htwo])
    refine ⟨[op, b1, lo8 w, hi8 w], (flen_of_onePhase htwo _).symm, hcovered.le, ?_⟩
    rw [henc, hcovered]
    rfl

end

/-- A payload of at least one item is not empty (41_framing R109). -/
theorem plen_pos {op : FunctionCode} (htwo : isTwoPhase op = true) {count : Nat} (h : count ≠ 0) : 0 < plen op count := by
  cases op with
  | readRegister | writeRegister => simp only [plen]; omega
  | readBit | writeBits => simp only [plen, ceilDiv]; omega
  | _ => cases htwo

/-- Settles O19: the length of the class, its bounds, and the trailer behind the body. -/
theorem frameLengths : Obligations.FrameLengths := by
  intro cfg i h
  have hlen := encode_length h
  obtain ⟨_, hcount, _, _, _, _, hdesc⟩ := check_none_iff.mp h
  refine ⟨hlen, ?_, fun href => ?_, ?_⟩
  · cases htwo : isTwoPhase i.op with
    | true =>
      have hnonzero : reqCount i.construction ≠ 0 := hcount.resolve_left fun hidle => by rw [hidle] at htwo; cases htwo
      have hpos := plen_pos htwo hnonzero
      rw [hlen, flen_of_twoPhase htwo]
      simp
      omega
    | false => simp [hlen, flen_of_onePhase htwo]
  · cases htwo : isTwoPhase i.op with
    | true =>
      have hmax := (ndesc_le_maxDesc_iff href _).mp (hdesc htwo)
      rw [hlen, flen_of_twoPhase htwo]
      omega
    | false => simp [hlen, flen_of_onePhase htwo]
  · obtain ⟨body, hbody, hcovered, henc⟩ := encode_eq_body_trailer h
    have hend : (encode cfg i).length - 2 = body.length := by omega
    rw [hend, henc, List.drop_left]
    show _ = le16bytes (frameChecksum cfg (List.take (coveredLength cfg i.op (reqCount i.construction)) _))
    rw [List.take_append_of_le_length hcovered]

/-- Settles O21: the list is the settling slot and data segments that tile the frame. -/
theorem segmentListInvariants : Obligations.SegmentListInvariants := by
  intro cfg i hchunk hdescs h
  have hlimit : 0 < cfg.chunkLimit := by omega
  obtain ⟨_, _, _, _, _, _, hdesc⟩ := check_none_iff.mp h
  have hcons := segsFor_eq_cons cfg i.op (reqCount i.construction)
  have hmem : ∀ d ∈ (acceptedRecord cfg i).segs,
      d = settleSlot cfg ∨ d ∈ (segsFor cfg i.op (reqCount i.construction)).tail := fun d hd =>
    List.mem_cons.mp (hcons ▸ hd)
  refine ⟨?_, ?_, fun d hd => ?_, ?_, ?_, fun d hd => ?_, fun d hd => ?_⟩
  · show (segsFor cfg i.op (reqCount i.construction)).length ≤ cfg.maxDesc
    cases htwo : isTwoPhase i.op with
    | true => rw [segsFor_of_twoPhase htwo, segs2_length _ _ hlimit]; exact hdesc htwo
    | false => rw [segsFor_of_onePhase htwo]; exact hdescs
  · show (segsFor cfg i.op (reqCount i.construction)).head? = _
    rw [hcons]
    rfl
  · rcases hmem d hd with rfl | hd
    · exact Nat.zero_le _
    · obtain ⟨_, hlen, _⟩ := segsFor_tail_mem hd
      omega
  · have htiles := tiles_payloadChunks hlimit (plen i.op (reqCount i.construction)) 0 (Nat.zero_le _) (Nat.le_add_left ..)
    have hsum := sum_length_of_tiles htiles
    omega
  · show tiles 0 (segsFor cfg i.op (reqCount i.construction)).tail (encode cfg i).length
    rw [encode_length h]
    exact tiles_segsFor_tail hlimit _ _
  · rcases hmem d hd with rfl | hd
    · rfl
    · obtain ⟨_, _, hoffset⟩ := segsFor_tail_mem hd
      exact hoffset
  · obtain ⟨hdelay, _, _⟩ := segsFor_tail_mem hd
    exact hdelay

/-- Settles O22: the settling slot carries no byte, and the data segments tile the frame. -/
theorem wireCarriesTheFrame : Obligations.WireCarriesTheFrame := by
  intro cfg i hlimit h
  have htiles : tiles 0 (segsFor cfg i.op (reqCount i.construction)).tail (encode cfg i).length := by
    rw [encode_length h]
    exact tiles_segsFor_tail hlimit _ _
  show wireBytes (segsFor cfg i.op (reqCount i.construction)) (encode cfg i) = encode cfg i ∧
    ∀ stream rx : List Byte, stream.length = (encode cfg i).length → rx.length = (encode cfg i).length →
      placeReceived (segsFor cfg i.op (reqCount i.construction)) stream rx = stream
  rw [segsFor_eq_cons]
  refine ⟨?_, fun stream rx hstream hrx => ?_⟩
  · have hslot : memRead (encode cfg i) (settleSlot cfg).txOffset (settleSlot cfg).length = [] := rfl
    have hdata := wireBytes_of_tiles htiles (encode cfg i)
    rw [wireBytes] at hdata ⊢
    rw [List.flatMap_cons, hslot, hdata]
    simp [memRead]
  · have hslot : memWrite rx (settleSlot cfg).rxOffset (stream.take (settleSlot cfg).length) = rx := by
      simp [settleSlot, memWrite]
    rw [placeReceived, hslot]
    have hoffsets : ∀ d ∈ (segsFor cfg i.op (reqCount i.construction)).tail, d.rxOffset = d.txOffset := fun d hd => by
      obtain ⟨_, _, hoffset⟩ := segsFor_tail_mem hd
      exact hoffset
    exact placeReceived_of_tiles htiles hoffsets hstream hrx

end Sys2Proof.Machine
end

section
/-! PROOFS. Replies (44_validation R156, R157, R162, R163): what an echo, an all-zero reply and two replies that differ in the payload
get, and the results read back from packed payloads. -/

namespace Sys2Proof.Machine

open Safety

/-! An echo of the request. -/

/-- A frame's own trailer is the checksum the validator computes over it (44_validation R153). -/
theorem crcOk_encode {cfg : Config} {i : Instr} (h : check cfg i.op i.construction = none)
    (htwo : isTwoPhase i.op = true) : crcOk cfg (plen i.op (reqCount i.construction)) (encode cfg i) = true := by
  obtain ⟨body, hbody, hcovered, henc⟩ := encode_eq_body_trailer h
  have hlen : body.length = 4 + plen i.op (reqCount i.construction) := by
    rw [flen_of_twoPhase htwo] at hbody
    omega
  have hlow : byteOf (encode cfg i) (4 + plen i.op (reqCount i.construction)) =
      lo8 (frameChecksum cfg (body.take (coveredLength cfg i.op (reqCount i.construction)))) := by
    rw [henc, ← hlen]
    exact byteOf_append_right body _ 0
  have hhigh : byteOf (encode cfg i) (5 + plen i.op (reqCount i.construction)) =
      hi8 (frameChecksum cfg (body.take (coveredLength cfg i.op (reqCount i.construction)))) := by
    rw [henc, show 5 + plen i.op (reqCount i.construction) = body.length + 1 by omega]
    exact byteOf_append_right body _ 1
  have hscope : (if cfg.crcScope = .headerPlusPayload then 4 + plen i.op (reqCount i.construction) else 4) =
      coveredLength cfg i.op (reqCount i.construction) := by
    simp [coveredLength, htwo]
  rw [crcOk_iff, hlow, hhigh, le16_lo8_hi8, hscope, henc, List.take_append_of_le_length hcovered]
  rfl

/-- The first byte of a frame is its opcode (30_encoding R66). -/
theorem opcodeMatches_encode {cfg : Config} {i : Instr} (h : check cfg i.op i.construction = none) :
    opcodeMatches cfg i.op (encode cfg i) = true := by
  rw [opcodeMatches_iff]
  cases htwo : isTwoPhase i.op with
  | true =>
    obtain ⟨op, payload, hop, _, henc⟩ := encode_of_twoPhase h htwo
    rw [hop, henc, encodeF2_eq]
    rfl
  | false =>
    obtain ⟨op, b1, w, hop, henc⟩ := encode_of_onePhase h htwo
    rw [hop, henc]
    rfl

/-- Bytes 2 and 3 of a two-phase frame are its address (30_encoding R70). -/
theorem addr_encode {cfg : Config} {i : Instr} (h : check cfg i.op i.construction = none)
    (htwo : isTwoPhase i.op = true) :
    le16 (byteOf (encode cfg i) 2) (byteOf (encode cfg i) 3) = reqAddr i.construction := by
  obtain ⟨op, payload, _, _, henc⟩ := encode_of_twoPhase h htwo
  rw [henc, encodeF2_eq]
  exact le16_lo8_hi8 _

theorem validateState_encode {cfg : Config} {i : Instr} (h : check cfg i.op i.construction = none) :
    validateState cfg i.op (reqAddr i.construction) (reqCount i.construction) (encode cfg i) = .completed := by
  cases htwo : isTwoPhase i.op with
  | true =>
    rw [validateState_of_twoPhase htwo, validate2_completed_iff]
    exact ⟨crcOk_encode h htwo, opcodeMatches_encode h, fun _ => addr_encode h htwo⟩
  | false =>
    rw [validateState_of_onePhase htwo, validate1_completed_iff]
    refine ⟨opcodeMatches_encode h, fun hread => ?_⟩
    cases (isTwoPhase_of_isRead hread).symm.trans htwo

/-! An all-zero reply. -/

/-- Under the default table and seed the checksum of zeros is the zero trailer (40_checksum R92). -/
theorem crcOk_zeros {cfg : Config} (htable : cfg.crcTable = defaultCrcTable) (hinit : cfg.crcInit = 0#16) (p n : Nat) :
    crcOk cfg p (zeros n) = true := by
  rw [crcOk_iff, byteOf_zeros, byteOf_zeros, htable, hinit, zeros, List.take_replicate]
  exact checksum_zeros _

/-- No default opcode is the zero byte. -/
theorem opcodeByte_default_ne_zero (op : FunctionCode) : opcodeByte defaultOpcodes op ≠ some 0#8 := by
  cases op <;> decide

/-- Settles O24: the echo passes every check, the zeros pass the checksum and fail the opcode. -/
theorem echoPassesZerosFail : Obligations.EchoPassesZerosFail := by
  refine ⟨fun cfg i => validateState_encode, fun cfg op addr count htable hinit hops htwo => ?_⟩
  refine ⟨crcOk_zeros htable hinit _ _, (validateState_cases ..).resolve_left fun hcompleted => ?_⟩
  rw [validateState_of_twoPhase htwo, validate2_completed_iff, opcodeMatches_iff, byteOf_zeros, hops] at hcompleted
  obtain ⟨_, hop, _⟩ := hcompleted
  exact opcodeByte_default_ne_zero op hop

/-! Two replies that differ in the payload. -/

/-- Byte lists with the same first `n` bytes. -/
theorem take_eq_of_byteOf {xs ys : List Byte} {n : Nat} (hxs : n ≤ xs.length) (hys : n ≤ ys.length)
    (h : ∀ k, k < n → byteOf xs k = byteOf ys k) : xs.take n = ys.take n := by
  refine List.ext_getElem (by simp [hxs, hys]) fun k hk hk' => ?_
  have hkn : k < n := by rw [List.length_take] at hk; omega
  have hbyte := h k hkn
  rw [byteOf, byteOf, List.getD_eq_getElem xs _ (by omega), List.getD_eq_getElem ys _ (by omega)] at hbyte
  rw [List.getElem_take, List.getElem_take, hbyte]

/-- Settles O25: under HeaderOnly the checks read the header and the trailer alone. -/
theorem headerOnlyIgnoresPayload : Obligations.HeaderOnlyIgnoresPayload := by
  intro cfg op addr count rx rx' hscope htwo hlen hlen' hheader htrailer
  have hframe : flen op count = 4 + plen op count + 2 := flen_of_twoPhase htwo count
  have hcovered : rx.take 4 = rx'.take 4 := take_eq_of_byteOf (by omega) (by omega) hheader
  have hcrc : crcOk cfg (plen op count) rx = crcOk cfg (plen op count) rx' := by
    simp only [crcOk, replyCovered, hscope, memRead, List.drop_zero, hcovered, htrailer _ le_rfl,
      htrailer (5 + plen op count) (by omega)]
  have hop : opcodeMatches cfg op rx = opcodeMatches cfg op rx' := by
    simp only [opcodeMatches, hheader 0 (by decide)]
  rw [validateState_of_twoPhase htwo, validateState_of_twoPhase htwo]
  simp only [validate2, hcrc, hop, hheader 2 (by decide), hheader 3 (by decide)]

/-! The results. -/

/-- Settles O26: the decoder reads behind the header, and the payload gives back what was packed. -/
theorem resultsReadBackPayload : Obligations.ResultsReadBackPayload := by
  have hdrop : ∀ header payload trailer : List Byte, header.length = 4 →
      (header ++ payload ++ trailer).drop 4 = payload ++ trailer := fun header payload trailer hlen => by
    rw [List.append_assoc, ← hlen, List.drop_left]
  refine ⟨fun header trailer values hlen => ?_, fun header trailer payload values hlen hpayload hbits => ?_⟩
  · simp only [decodeResult, hdrop _ _ _ hlen, map_regAt_packRegs_append]
  · simp only [decodeResult, hdrop _ _ _ hlen]
    refine congrArg ReadResult.bits (List.ext_getElem (by simp) fun k _ hk => ?_)
    have hroom : k < 8 * payload.length := hpayload ▸ hk.trans_le (le_mul_ceilDiv _)
    rw [List.getElem_map, List.getElem_range, bitAt_append_left hroom, hbits k hk]

end Sys2Proof.Machine
end

section
/-! PROOFS. Single steps of the agents (43_sequencer R127, R130, R131, R138, R140, R146, R147; 10_state R35, R39; 60_exceptions R171),
the host's attach sequence (70_reset R190, R191) and several instances (20_memory R54): an equation per case of each step, and the
statements read off them. -/

namespace Sys2Proof.Machine

open Safety

/-! Runs of so many steps. -/

theorem run_zero (s : State) : Host.Core.run core 0 s = .next s := rfl

theorem run_succ {s s' : State} (h : step s = .next s') (k : Nat) :
    Host.Core.run core (k + 1) s = Host.Core.run core k s' := by
  have hcore : core.step s = .next s' := h
  simp only [Host.Core.run, hcore]

/-- A run of one more step is a step and a run from where it leads. -/
theorem run_succ_cases {s s' : State} {k : Nat} (h : Host.Core.run core (k + 1) s = .next s') :
    ∃ r, step s = .next r ∧ Host.Core.run core k r = .next s' := by
  cases hstep : step s with
  | next r => exact ⟨r, rfl, (run_succ hstep k).symm.trans h⟩
  | fault f =>
    have hcore : core.step s = .fault f := hstep
    simp only [Host.Core.run, hcore] at h
    cases h
  | refused f =>
    have hcore : core.step s = .refused f := hstep
    simp only [Host.Core.run, hcore] at h
    cases h

theorem step_scheduleNext (e : Event) (s : State) : step (s.scheduleNext e) = eventStep e s := rfl

theorem step_sequencer (s : State) : step (s.scheduleNext .sequencer) = sequencerStep s := rfl

/-! Presented requests. -/

theorem presentStep_of_fetch {p : Presented} {s : State} {i : Instr} (h : fetch s.cfg p = .ok i) :
    presentStep p s = exec i s := by
  simp only [presentStep, h]

theorem presentStep_of_fetch_error {p : Presented} {s : State} {e : DecodeError} (h : fetch s.cfg p = .error e) :
    presentStep p s = .refused (.badFrame e) := by
  simp only [presentStep, h]

/-- Settles O27: a placed word is the next event, and taking it off gives the state before back. -/
theorem stepRunsPresentedRequest : Obligations.StepRunsPresentedRequest := by
  intro s rest
  refine ⟨fun i hsched => ?_, fun bytes i hsched hdec => ?_, fun bytes e hsched hdec => ?_, fun nbits w i hdec => ?_⟩
  · exact (step_of_sched hsched).trans (presentStep_of_fetch (p := .term i) (s := { s with sched := rest }) rfl)
  · exact (step_of_sched hsched).trans (presentStep_of_fetch hdec)
  · exact (step_of_sched hsched).trans (presentStep_of_fetch_error hdec)
  · exact (step_scheduleNext _ s).trans (presentStep_of_fetch hdec)

/-! The sequencer. -/

section
variable {s : State} {t : Nat} {m : Message}

theorem sequencerStep_of_stop (hseq : s.seq = .idle) (hstop : s.stop = true) :
    sequencerStep s = .next { s with seq := .stopped } := by
  simp only [sequencerStep, hseq, hstop, if_true]

theorem sequencerStep_of_empty (hseq : s.seq = .idle) (hstop : s.stop = false) (hq : s.q = []) :
    sequencerStep s = .next s := by
  simp only [sequencerStep, hseq, hstop, Bool.false_eq_true, if_false, dispatchHead, hq]

theorem sequencerStep_of_dispatch_busy {rest : List Nat} (hseq : s.seq = .idle) (hstop : s.stop = false)
    (hq : s.q = t :: rest) (hm : memGet s.msgs t = some m) (hbusy : s.busBusy = true) :
    sequencerStep s = .next (s.takeHead t rest (armed s m)).awaitBus := by
  simp only [sequencerStep, hseq, hstop, Bool.false_eq_true, if_false, dispatchHead, hq, hm, hbusy, if_true]

theorem sequencerStep_of_dispatch_free {rest : List Nat} (hseq : s.seq = .idle) (hstop : s.stop = false)
    (hq : s.q = t :: rest) (hm : memGet s.msgs t = some m) (hfree : s.busBusy = false) :
    sequencerStep s = .next ((s.takeHead t rest (armed s m)).submit t (armed s m)) := by
  simp only [sequencerStep, hseq, hstop, Bool.false_eq_true, if_false, dispatchHead, hq, hm, hfree]

theorem sequencerStep_of_waitBus_busy (hseq : s.seq = .waitBus) (hbusy : s.busBusy = true) :
    sequencerStep s = .next s := by
  simp only [sequencerStep, hseq, hbusy, if_true]

theorem sequencerStep_of_waitBus_free (hseq : s.seq = .waitBus) (hcur : s.cur = some t)
    (hm : memGet s.msgs t = some m) (hfree : s.busBusy = false) : sequencerStep s = .next (s.submit t m) := by
  simp only [sequencerStep, hseq, hfree, Bool.false_eq_true, if_false, submitCurrent, hcur, hm]

end

/-- Settles O28. -/
theorem dispatchServesHead : Obligations.DispatchServesHead := by
  intro s rest t qs m hsched hseq hstop hq hm
  refine ⟨fun hbusy => ?_, fun hfree => ?_⟩
  · exact (step_of_sched hsched).trans (sequencerStep_of_dispatch_busy hseq hstop hq hm hbusy)
  · exact (step_of_sched hsched).trans (sequencerStep_of_dispatch_free hseq hstop hq hm hfree)

/-- Settles O29. -/
theorem waitBusHoldsThenSubmits : Obligations.WaitBusHoldsThenSubmits := by
  intro s rest t m hsched hseq hcur hm
  refine ⟨fun hbusy => ?_, fun hfree => ?_⟩
  · exact (step_of_sched hsched).trans (sequencerStep_of_waitBus_busy hseq hbusy)
  · exact (step_of_sched hsched).trans (sequencerStep_of_waitBus_free hseq hcur hm hfree)

/-- An answer that finds the deadline reached lets the expiry go first (43_sequencer R138). -/
theorem busStep_of_late {s : State} {a : BusAnswer} {t : Nat} {m : Message} (hbusy : s.busBusy = true)
    (hfits : answerFits s a = true) (horphan : s.orphan = none) (hseq : s.seq = .inFlight) (hcur : s.cur = some t)
    (hm : memGet s.msgs t = some m) (htimed : s.cfg.timed = true) (hdue : deadlineReached s m = true) :
    busStep a s = .next ((expireMessage t m s).scheduleNext (.bus a)) := by
  simp only [busStep, hbusy, hfits, horphan, hseq, hcur, hm, htimed, hdue, Bool.and_self, if_true]

/-- Settles O34: the expiry leaves the answer as the next event, which then finds the orphan. -/
theorem lateAnswerLosesToDeadline : Obligations.LateAnswerLosesToDeadline := by
  intro s rest t d m sub a htimed hsched hbusy hbus horphan hlen hseq hcur hm hd hle
  have hfits : answerFits s a = true := (answerFits_iff hbus).mpr hlen
  have hdue : deadlineReached s m = true := deadlineReached_iff.mpr (.inr ⟨d, hd, hle⟩)
  have hexpire : step s = .next ((expireMessage t m { s with sched := rest }).scheduleNext (.bus a)) :=
    (step_of_sched hsched).trans (busStep_of_late hbusy hfits horphan hseq hcur hm htimed hdue)
  have hmarked : (expireMessage t m { s with sched := rest }).orphan = some t := if_pos hseq
  have hdiscard : step ((expireMessage t m { s with sched := rest }).scheduleNext (.bus a)) =
      .next (expireMessage t m { s with sched := rest }).discardOrphan :=
    (step_scheduleNext _ _).trans (busStep_of_orphan hbusy hfits hmarked)
  rw [run_succ hexpire, run_succ hdiscard, run_zero]
  simp only [horphan]
  rfl

/-! Waiting, and the clock (43_sequencer R138, R140). -/

theorem tickAllowed_iff {s : State} {micros : Nat} : tickAllowed s micros = true ↔
    (s.seq = .idle → s.stop = true → s.now + micros ≤ s.stopAt + s.cfg.pollIntervalUs) := by
  simp [tickAllowed, imp_iff_not_or, or_assoc]

theorem tickStep_of_allowed {s : State} {micros : Nat} (htimed : s.cfg.timed = true)
    (hallowed : tickAllowed s micros = true) : tickStep micros s = .next { s with now := s.now + micros } := by
  simp only [tickStep, htimed, hallowed, Bool.and_self, if_true]

theorem tickStep_of_not_allowed {s : State} {micros : Nat} (hallowed : ¬ tickAllowed s micros = true) :
    tickStep micros s = .next s := by
  simp only [tickStep, hallowed, Bool.and_false, Bool.false_eq_true, if_false]

theorem tickStep_of_untimed {s : State} (micros : Nat) (huntimed : s.cfg.timed = false) :
    tickStep micros s = .next s := by
  simp only [tickStep, huntimed, Bool.false_and, Bool.false_eq_true, if_false]

theorem resumeStep_of_none {s : State} {k : Nat} (h : s.blocked[k]? = none) : resumeStep k s = .next s := by
  simp only [resumeStep, h]

theorem step_of_quiet {s : State} (hsched : s.sched = []) (hquiet : sequencerEnabled s = false) :
    step s = resumeStep 0 s := by
  simp only [step, agentStep, hsched, quietStep, hquiet, Bool.false_eq_true, if_false]

/-- Settles O36: the bound on the clock is the condition on a tick. -/
theorem emptyQueueWaits : Obligations.EmptyQueueWaits := by
  refine ⟨fun s hsched hseq hstop hq hheld => ?_, fun s rest hsched hseq hstop hq => ?_,
    fun s s' rest micros hsched htimed hseq hstop hnow h => ?_, fun s rest micros hsched => ⟨?_, ?_, ?_⟩⟩
  · have hquiet : sequencerEnabled s = false := by simp [sequencerEnabled, hseq, hstop, hq]
    exact (step_of_quiet hsched hquiet).trans (resumeStep_of_none (by simp [hheld]))
  · exact (step_of_sched hsched).trans (sequencerStep_of_empty hseq hstop hq)
  · rw [step_of_sched hsched] at h
    rcases tickStep_cases h with rfl | ⟨_, hallowed, rfl⟩
    · exact hnow
    · exact tickAllowed_iff.mp hallowed hseq hstop
  · intro htimed hbound
    exact (step_of_sched hsched).trans (tickStep_of_allowed htimed (tickAllowed_iff.mpr hbound))
  · intro _ hseq hstop hpast
    refine (step_of_sched hsched).trans (tickStep_of_not_allowed fun hallowed => ?_)
    exact absurd (tickAllowed_iff.mp hallowed hseq hstop) hpast.not_ge
  · intro huntimed
    exact (step_of_sched hsched).trans (tickStep_of_untimed micros huntimed)

/-! The host's controls. -/

/-- Settles O39. -/
theorem shutdownStopsIdleSequencer : Obligations.ShutdownStopsIdleSequencer :=
  ⟨fun _ _ hsched => step_of_sched hsched,
    fun _ _ hsched hseq hstop => (step_of_sched hsched).trans (sequencerStep_of_stop hseq hstop)⟩

theorem startStep_of_open {s : State} (hseq : s.seq = .stopped) :
    startStep true s = .next { s with stop := false, seq := .idle } := if_pos hseq

theorem startStep_of_closed {s : State} (hseq : s.seq = .stopped) :
    startStep false s = .next (s.emit .deviceUnavailable) := if_pos hseq

theorem startStep_of_running {s : State} (opens : Bool) (hseq : s.seq ≠ .stopped) : startStep opens s = .next s :=
  if_neg hseq

/-- Settles O41. -/
theorem startOpensOrFails : Obligations.StartOpensOrFails := by
  intro s rest opens hsched
  refine ⟨fun hseq hopen => ?_, fun hseq hclosed => ?_, fun hseq => ?_⟩
  · subst hopen
    exact (step_of_sched hsched).trans (startStep_of_open hseq)
  · subst hclosed
    exact (step_of_sched hsched).trans (startStep_of_closed hseq)
  · exact (step_of_sched hsched).trans (startStep_of_running opens hseq)

/-! The host's reads. -/

theorem readResultStep_of_ended {s : State} {t : Nat} {m : Message} (hm : memGet s.msgs t = some m)
    (hended : m.state ≠ .pending) : readResultStep t s = .next (s.emit (.messageResult t m.result)) := by
  simp only [readResultStep, hm, if_neg hended]

theorem readRxStep_of_value {s : State} {t : Nat} {m : Message} {bytes : List Byte} (hm : memGet s.msgs t = some m)
    (hended : m.state ≠ .pending) (hrx : m.rx = some bytes) : readRxStep t s = .next (s.emit (.messageRx t bytes)) := by
  simp only [readRxStep, hm, if_neg hended, hrx]

theorem readStateStep_of_some {s : State} {t : Nat} {m : Message} (hm : memGet s.msgs t = some m) :
    readStateStep t s =
      .next { s.emit (.messageState t m.state) with signals := s.signals.filter (fun u => u != t) } := by
  simp only [readStateStep, hm]

/-- Settles O43: the invariant gives a Completed or ProtocolError message its reply. -/
theorem endedMessageReads : Obligations.EndedMessageReads := by
  intro s rest t m hinv hm hended
  refine ⟨fun hsched => ?_, fun hreply hsched => ?_⟩
  · exact (step_of_sched hsched).trans (readResultStep_of_ended hm hended)
  · obtain ⟨bytes, hrx⟩ := Option.isSome_iff_exists.mp ((hinv.records.rxHeld t m hm).mpr hreply)
    exact ⟨bytes, hrx, hinv.records.rxLength t m bytes hm hrx,
      (step_of_sched hsched).trans (readRxStep_of_value hm hended hrx)⟩

/-- Settles O44: each of the two reads answers the record's state and clears the tag's signal alone. -/
theorem stateReadClearsSignal : Obligations.StateReadClearsSignal := by
  intro s rest t m hm hsched
  have hfirst : step s = .next _ := (step_of_sched hsched).trans (readStateStep_of_some hm)
  have hsecond := (step_of_sched (s := { s with
    sched := .readState t :: rest
    signals := s.signals.filter (fun u => u != t)
    out := s.out ++ [.messageState t m.state] }) rfl).trans (readStateStep_of_some hm)
  refine ⟨_, (run_succ hfirst 1).trans (run_succ hsecond 0), rfl, by simp, fun u hu => by simp [hu], by simp⟩

/-- Settles O45. -/
theorem statusIsHardwired : Obligations.StatusIsHardwired :=
  ⟨fun _ _ hsched => step_of_sched hsched, fun _ _ _ hsched => step_of_sched hsched, rfl, rfl, rfl, rfl, rfl⟩

/-! The attach sequence (70_reset R190, R191). -/

section
variable {boardSpeed : List Half → Nat} {opens : Bool}

/-- After Start the answer to it, and to it alone, says whether attach goes on. -/
theorem attachNext_started_of_failed {answered : Nat} {s : State}
    (h : Output.deviceUnavailable ∈ s.out.drop answered) :
    attachNext boardSpeed opens (.started answered) s = (.failed, none) := if_pos h

theorem attachNext_started_of_open {answered : Nat} {s : State}
    (h : Output.deviceUnavailable ∉ s.out.drop answered) :
    attachNext boardSpeed opens (.started answered) s =
      (.waiting s.nextTag, some (.present (.term (.readRegister (.read 1000 5))))) := if_neg h

/-- From Start on: the state it leaves, and what attach makes of it. -/
theorem attachNext_after_start (s : State) :
    ∃ s', step { s with sched := [.start opens] } = .next s' ∧
      attachNext boardSpeed opens (.started s.out.length) s' =
        if s.seq = .stopped ∧ opens = false then (.failed, none)
        else (.waiting s.nextTag, some (.present (.term (.readRegister (.read 1000 5))))) := by
  have hstep : step { s with sched := [.start opens] } = startStep opens { s with sched := [] } :=
    step_scheduleNext (.start opens) { s with sched := [] }
  have hnothing : Output.deviceUnavailable ∉ s.out.drop s.out.length := by simp
  by_cases hseq : s.seq = .stopped
  · cases opens with
    | true =>
      refine ⟨_, hstep.trans (startStep_of_open hseq), ?_⟩
      rw [if_neg (by simp)]
      exact attachNext_started_of_open hnothing
    | false =>
      refine ⟨_, hstep.trans (startStep_of_closed hseq), ?_⟩
      rw [if_pos ⟨hseq, rfl⟩]
      exact attachNext_started_of_failed (by simp)
  · refine ⟨_, hstep.trans (startStep_of_running opens hseq), ?_⟩
    rw [if_neg fun hboth => hseq hboth.1]
    exact attachNext_started_of_open hnothing

/-- While it waits, attach goes by the state of its message (70_reset R190). -/
theorem attachNext_waiting {s : State} {t : Nat} {m : Message} (hm : memGet s.msgs t = some m) :
    (m.state = .pending → attachNext boardSpeed opens (.waiting t) s = (.waiting t, none)) ∧
    (∀ values, m.state = .completed → m.result = .registers values →
      attachNext boardSpeed opens (.waiting t) s = (.attached, some (.setSpeed (boardSpeed values)))) ∧
    (m.state = .timedOut ∨ m.state = .transportError ∨ m.state = .protocolError →
      attachNext boardSpeed opens (.waiting t) s = (.failed, some .shutdown)) := by
  refine ⟨fun hpending => ?_, fun values hcompleted hresult => ?_, fun hended => ?_⟩
  · simp only [attachNext, hm, hpending]
  · simp only [attachNext, hm, hcompleted, hresult]
  · rcases hended with h | h | h <;> simp only [attachNext, hm, h]

end

theorem refLimits_default : RefLimits defaultConfig := ⟨rfl, rfl, rfl⟩

/-- The version read passes the checks under the default configuration (70_reset R190). -/
theorem check_versionRead : check defaultConfig versionRead.op versionRead.construction = none :=
  (check_readRegister_none_iff refLimits_default).mpr ⟨by decide, by decide⟩

/-- The reset state, started, with these events to come. -/
def startedAtReset (es : List Event) : State := { State.reset with seq := .idle, sched := es }

theorem step_start_reset (es : List Event) :
    step { State.reset with sched := .start true :: es } = .next (startedAtReset es) :=
  (step_scheduleNext (.start true) { State.reset with sched := es }).trans (startStep_of_open rfl)

theorem step_versionRead_startedAtReset (es : List Event) :
    step (startedAtReset (.present (.term versionRead) :: es)) =
      .next (entered (startedAtReset es) (acceptedRecord defaultConfig versionRead)) :=
  (presentStep_of_fetch (p := .term versionRead) (s := startedAtReset es) rfl).trans (exec_of_room check_versionRead rfl)

/-- Settles O58: from reset, Start, the entry of the version read and its dispatch, at the rate SPEED has from reset. -/
theorem attachSequence : Obligations.AttachSequence := by
  refine ⟨fun boardSpeed opens s => ⟨rfl, attachNext_after_start s, fun t m => attachNext_waiting⟩, ?_⟩
  have hdispatch := sequencerStep_of_dispatch_free (t := 0) (rest := [])
    (s := entered (startedAtReset []) (acceptedRecord defaultConfig versionRead)) rfl rfl rfl rfl rfl
  exact ⟨_, _, (run_succ (step_start_reset _) 2).trans
    ((run_succ (step_versionRead_startedAtReset _) 1).trans
      (run_succ ((step_sequencer _).trans hdispatch) 0)), rfl, rfl, rfl⟩

/-! Several instances (20_memory R54). -/

section
variable {sys : System} {k j : Fin 3} {b : State}

theorem setBlock_index : (sys.setBlock k b).map Node.index = sys.map Node.index := by
  rw [System.setBlock, List.map_map]
  refine List.map_congr_left fun n _ => ?_
  simp only [Function.comp]
  split <;> rfl

theorem setBlock_device : (sys.setBlock k b).map Node.device = sys.map Node.device := by
  rw [System.setBlock, List.map_map]
  refine List.map_congr_left fun n _ => ?_
  simp only [Function.comp]
  split <;> rfl

/-- Replacing the block of index `k` keeps each block where it is found. -/
theorem blockOf_setBlock :
    (sys.setBlock k b).blockOf j = (sys.blockOf j).map (fun old => if j = k then b else old) := by
  have hfound : ∀ n : Node, decide ((if n.index = k then { n with block := b } else n).index = j) = decide (n.index = j) :=
    fun n => by split <;> rfl
  simp only [System.blockOf, System.setBlock, List.find?_map, Function.comp_def, hfound, Option.map_map]
  refine Option.map_congr fun n hn => ?_
  have hj : n.index = j := by simpa using List.find?_some hn
  subst hj
  split <;> rfl

/-- A step of a system that takes one is nothing, where the index has no block, or the step of its block. -/
theorem systemStep_cases {sys' : System} (h : systemStep k sys = .next sys') :
    (sys.blockOf k = none ∧ sys' = sys) ∨
    ∃ b b', sys.blockOf k = some b ∧ step b = .next b' ∧ sys' = sys.setBlock k b' := by
  unfold systemStep at h
  split at h
  · split at h
    · next hnone =>
      cases h
      exact .inl ⟨hnone, rfl⟩
    · next b hb =>
      split at h
      · next b' hstep =>
        cases h
        exact .inr ⟨b, b', hb, hstep, rfl⟩
      · cases h
      · cases h
  · cases h

end

/-- Settles O59: one block is replaced, by its own next state. -/
theorem instancesAreIndependent : Obligations.InstancesAreIndependent := by
  intro k sys sys' h
  rcases systemStep_cases h with ⟨hnone, rfl⟩ | ⟨b, b', hb, hstep, rfl⟩
  · exact ⟨fun _ _ => rfl, rfl, rfl, fun b hb => by cases hnone.symm.trans hb⟩
  · refine ⟨fun j hj => by simp [blockOf_setBlock, hj], setBlock_index, setBlock_device, fun c hc => ?_⟩
    obtain rfl := Option.some.inj (hb.symm.trans hc)
    exact ⟨b', hstep, by simp [blockOf_setBlock, hb]⟩

end Sys2Proof.Machine
end

section
/-! PROOFS. What a step can do to the block, said once for all agents (00_scope R14): nothing but its ports, an entry, a step of the
sequencer, the bus's answer or an expiry. Start stands apart, since it alone takes `stop` back. -/

namespace Sys2Proof.Safety

open Sys2Proof.Machine

/-- From `s` to `s'` the block itself stays as it is: what changes is the schedule, the held producers, the answers (of which none is
a submission), the signals, the clock moving on, SPEED, or `stop` being set. -/
structure PortsOnly (s s' : State) : Prop where
  cfg : s'.cfg = s.cfg
  seq : s'.seq = s.seq
  cur : s'.cur = s.cur
  q : s'.q = s.q
  nextTag : s'.nextTag = s.nextTag
  msgs : s'.msgs = s.msgs
  busBusy : s'.busBusy = s.busBusy
  orphan : s'.orphan = s.orphan
  log : s'.log = s.log
  bus : s'.bus = s.bus
  speed : 0 < s.speed → 0 < s'.speed
  stop : s.stop = true → s'.stop = true
  now : s.now ≤ s'.now
  out : ∃ os, s'.out = s.out ++ os ∧ ∀ t sub, Output.submitted t sub ∉ os

/-- What a step other than Start does, the schedule and the held producers set aside. -/
inductive Effect (s : State) : State → Prop
  /-- Nothing but the ports changes. -/
  | ports {s' : State} (h : PortsOnly s s') : Effect s s'
  /-- A request is entered (43_sequencer R127). -/
  | enters {i : Instr} (hcheck : check s.cfg i.op i.construction = none) :
    Effect s (entered s (acceptedRecord s.cfg i))
  /-- The idle sequencer observes `stop` (43_sequencer R146). -/
  | stops (hseq : s.seq = .idle) (hstop : s.stop = true) : Effect s { s with seq := .stopped }
  /-- The head of the queue becomes current and waits for the bus (43_sequencer R130). -/
  | waits {t : Nat} {rest : List Nat} {m : Message} (hseq : s.seq = .idle) (hstop : s.stop = false)
    (hq : s.q = t :: rest) (hm : memGet s.msgs t = some m) : Effect s (s.takeHead t rest (armed s m)).awaitBus
  /-- The head of the queue becomes current and is submitted (43_sequencer R130, R132). -/
  | dispatches {t : Nat} {rest : List Nat} {m : Message} (hseq : s.seq = .idle) (hstop : s.stop = false)
    (hq : s.q = t :: rest) (hm : memGet s.msgs t = some m) (hfree : s.busBusy = false) :
    Effect s ((s.takeHead t rest (armed s m)).submit t (armed s m))
  /-- The waiting message is submitted (43_sequencer R131). -/
  | submits {t : Nat} {m : Message} (hseq : s.seq = .waitBus) (hcur : s.cur = some t)
    (hm : memGet s.msgs t = some m) (hfree : s.busBusy = false) : Effect s (s.submit t m)
  /-- The orphan's answer is discarded (43_sequencer R139). -/
  | discards (hbusy : s.busBusy = true) (horphan : s.orphan.isSome = true) : Effect s s.discardOrphan
  /-- The current message is answered (43_sequencer R133, R134). -/
  | answers {t : Nat} {m : Message} {a : BusAnswer} (hseq : s.seq = .inFlight) (hcur : s.cur = some t)
    (hm : memGet s.msgs t = some m) (hfits : answerFits s a = true) (horphan : s.orphan = none) :
    Effect s (answerCurrent t m a s)
  /-- The current message expires (43_sequencer R137). -/
  | expires {t : Nat} {m : Message} (hserving : serving s) (hcur : s.cur = some t)
    (hm : memGet s.msgs t = some m) : Effect s (expireMessage t m s)

/-- The step has one of the effects, whatever it does to the schedule and the held producers. -/
def Acts (s s' : State) : Prop :=
  ∃ es held r es', Effect { s with sched := es, blocked := held } r ∧ s' = { r with sched := es' }

theorem Effect.acts {s s' : State} (h : Effect s s') : Acts s s' := ⟨s.sched, s.blocked, s', s'.sched, h, rfl⟩

theorem PortsOnly.acts {s s' : State} (h : PortsOnly s s') : Acts s s' := (Effect.ports h).acts

theorem Acts.of_sched_blocked {s s' : State} {es : List Event} {held : List Instr}
    (h : Acts { s with sched := es, blocked := held } s') : Acts s s' := h

/-! What changes the ports alone. -/

theorem noSubmission_nil (os : List Output) :
    ∃ added, os = os ++ added ∧ ∀ t sub, Output.submitted t sub ∉ added := ⟨[], by simp⟩

theorem PortsOnly.refl (s : State) : PortsOnly s s :=
  ⟨rfl, rfl, rfl, rfl, rfl, rfl, rfl, rfl, rfl, rfl, id, id, le_rfl, noSubmission_nil _⟩

theorem PortsOnly.emit {o : Output} (ho : ∀ t sub, o ≠ .submitted t sub) (s : State) : PortsOnly s (s.emit o) where
  cfg := rfl
  seq := rfl
  cur := rfl
  q := rfl
  nextTag := rfl
  msgs := rfl
  busBusy := rfl
  orphan := rfl
  log := rfl
  bus := rfl
  speed := id
  stop := id
  now := le_rfl
  out := ⟨[o], rfl, fun t sub h => ho t sub (List.mem_singleton.mp h).symm⟩

theorem PortsOnly.hold (i : Instr) (s : State) : PortsOnly s (s.hold i) := { PortsOnly.refl s with }

/-! The agents' steps. -/

theorem exec_acts {i : Instr} {s s' : State} (h : exec i s = .next s') : Acts s s' := by
  rcases exec_total i s with ⟨k, hk⟩ | hhold | ⟨hcheck, hroom⟩
  · obtain rfl := outcome_next_inj.mp (hk.symm.trans h)
    exact (PortsOnly.emit (by nofun) s).acts
  · obtain rfl := outcome_next_inj.mp (hhold.symm.trans h)
    exact (PortsOnly.hold i s).acts
  · obtain rfl := outcome_next_inj.mp (hroom.symm.trans h)
    exact (Effect.enters hcheck).acts

theorem resumeStep_acts {k : Nat} {s s' : State} (h : resumeStep k s = .next s') : Acts s s' := by
  rcases resumeStep_cases h with rfl | ⟨i, _, _, hi⟩
  · exact (PortsOnly.refl _).acts
  · exact (exec_acts hi).of_sched_blocked

theorem sequencerStep_acts {s s' : State} (h : sequencerStep s = .next s') : Acts s s' := by
  rcases sequencerStep_cases h with rfl | ⟨hseq, hstop, rfl⟩ |
    ⟨hseq, hstop, t, rest, m, hq, hm, ⟨_, rfl⟩ | ⟨hfree, rfl⟩⟩ | ⟨hseq, hfree, t, m, hcur, hm, rfl⟩
  · exact (PortsOnly.refl _).acts
  · exact (Effect.stops hseq hstop).acts
  · exact (Effect.waits hseq hstop hq hm).acts
  · exact (Effect.dispatches hseq hstop hq hm hfree).acts
  · exact (Effect.submits hseq hcur hm hfree).acts

theorem busStep_acts {a : BusAnswer} {s s' : State} (h : busStep a s = .next s') : Acts s s' := by
  rcases busStep_cases h with rfl | ⟨hbusy, _, ⟨t, horphan⟩, rfl⟩ |
    ⟨_, hfits, horphan, hseq, t, m, hcur, hm, ⟨_, _, rfl⟩ | ⟨_, rfl⟩⟩
  · exact (PortsOnly.refl _).acts
  · exact (Effect.discards hbusy (horphan ▸ rfl)).acts
  · exact ⟨s.sched, s.blocked, expireMessage t m s, .bus a :: s.sched, .expires (.inr hseq) hcur hm, rfl⟩
  · exact (Effect.answers hseq hcur hm hfits horphan).acts

theorem expireStep_acts {s s' : State} (h : expireStep s = .next s') : Acts s s' := by
  rcases expireStep_cases h with rfl | ⟨t, m, hcur, hserving, hm, _, rfl⟩
  · exact (PortsOnly.refl _).acts
  · exact (Effect.expires hserving hcur hm).acts

theorem tickStep_acts {micros : Nat} {s s' : State} (h : tickStep micros s = .next s') : Acts s s' := by
  rcases tickStep_cases h with rfl | ⟨_, _, rfl⟩
  · exact (PortsOnly.refl _).acts
  · exact PortsOnly.acts { PortsOnly.refl s with now := Nat.le_add_right .. }

theorem setSpeedStep_acts {hz : Nat} {s s' : State} (h : setSpeedStep hz s = .next s') : Acts s s' := by
  rcases setSpeedStep_cases h with ⟨hpos, rfl⟩ | rfl
  · exact PortsOnly.acts { PortsOnly.refl s with speed := fun _ => hpos }
  · exact (PortsOnly.emit (by nofun) s).acts

theorem shutdownStep_acts {s s' : State} (h : shutdownStep s = .next s') : Acts s s' := by
  obtain rfl := outcome_next_inj.mp h
  exact PortsOnly.acts { PortsOnly.refl s with stop := fun _ => rfl }

theorem readStateStep_acts {t : Nat} {s s' : State} (h : readStateStep t s = .next s') : Acts s s' := by
  obtain ⟨m, _, rfl⟩ := readStateStep_cases h
  exact PortsOnly.acts { PortsOnly.emit (o := .messageState t m.state) (by nofun) s with }

/-- Start takes `stop` back and opens the block (43_sequencer R147). -/
def Starts (s s' : State) : Prop := s.seq = .stopped ∧ ∃ es, s' = { s with sched := es, stop := false, seq := .idle }

theorem startStep_acts {opens : Bool} {s s' : State} (h : startStep opens s = .next s') : Starts s s' ∨ Acts s s' := by
  rcases startStep_cases h with ⟨hseq, rfl⟩ | rfl | rfl
  · exact .inl ⟨hseq, s.sched, rfl⟩
  · exact .inr (PortsOnly.emit (by nofun) s).acts
  · exact .inr (PortsOnly.refl _).acts

theorem eventStep_acts {e : Event} {s s' : State} (h : eventStep e s = .next s') :
    (∃ opens, e = .start opens) ∧ Starts s s' ∨ Acts s s' := by
  cases e with
  | present p =>
    obtain ⟨i, _, hi⟩ := presentStep_cases h
    exact .inr (exec_acts hi)
  | resume k => exact .inr (resumeStep_acts h)
  | sequencer => exact .inr (sequencerStep_acts h)
  | bus a => exact .inr (busStep_acts h)
  | expire => exact .inr (expireStep_acts h)
  | tick micros => exact .inr (tickStep_acts h)
  | setSpeed hz => exact .inr (setSpeedStep_acts h)
  | shutdown => exact .inr (shutdownStep_acts h)
  | start opens => exact (startStep_acts h).imp_left fun hstart => ⟨⟨opens, rfl⟩, hstart⟩
  | readStatus =>
    obtain rfl := outcome_next_inj.mp h
    exact .inr (PortsOnly.emit (by nofun) s).acts
  | writeStatus value =>
    obtain rfl := outcome_next_inj.mp h
    exact .inr (PortsOnly.refl _).acts
  | readState t => exact .inr (readStateStep_acts h)
  | readRx t =>
    obtain ⟨m, bytes, _, _, _, rfl⟩ := readRxStep_cases h
    exact .inr (PortsOnly.emit (by nofun) s).acts
  | readResult t =>
    obtain ⟨m, _, _, rfl⟩ := readResultStep_cases h
    exact .inr (PortsOnly.emit (by nofun) s).acts

/-- Every step is Start, taken off the schedule, or has one of the effects. -/
theorem step_acts {s s' : State} (h : step s = .next s') :
    (∃ opens rest, s.sched = .start opens :: rest) ∧ Starts s s' ∨ Acts s s' := by
  rcases step_cases h with ⟨e, rest, hsched, he⟩ | ⟨_, hseq | hres⟩
  · rcases eventStep_acts he with ⟨⟨opens, rfl⟩, hstart⟩ | hacts
    · exact .inl ⟨⟨opens, rest, hsched⟩, hstart⟩
    · exact .inr (hacts.of_sched_blocked (held := s.blocked))
  · exact .inr (sequencerStep_acts hseq)
  · exact .inr (resumeStep_acts hres)

end Sys2Proof.Safety
end

section
/-! PROOFS. The invariant of the block (10_state R19, R28, R29; 43_sequencer R136, R141, R142): what each part of it needs of a change
of state, then each effect of a step, then the statements on what runs keep. -/

namespace Sys2Proof.Safety

open Sys2Proof.Machine

/-! One record. -/

/-- What a record's terminal state says of its buffers. -/
structure RecordOk (m : Message) : Prop where
  rxHeld : m.rx.isSome = true ↔ (m.state = .completed ∨ m.state = .protocolError)
  rxLength : ∀ bytes, m.rx = some bytes → bytes.length = m.tx.length
  resultHeld : m.state ≠ .completed → m.result = .nothing

theorem RecordInv.ok {s : State} (h : RecordInv s) {t : Nat} {m : Message} (hm : memGet s.msgs t = some m) : RecordOk m :=
  ⟨h.rxHeld t m hm, fun bytes => h.rxLength t m bytes hm, h.resultHeld t m hm⟩

theorem recordInv_of_ok {s : State} (h : ∀ t m, memGet s.msgs t = some m → RecordOk m) : RecordInv s :=
  ⟨fun t m hm => (h t m hm).rxHeld, fun t m bytes hm => (h t m hm).rxLength bytes, fun t m hm => (h t m hm).resultHeld⟩

/-- A record without a reply is in order unless it claims to have one. -/
theorem RecordOk.of_noReply {m : Message} (hrx : m.rx = none) (hresult : m.result = .nothing)
    (hcompleted : m.state ≠ .completed) (herror : m.state ≠ .protocolError) : RecordOk m :=
  ⟨by simp [hrx, hcompleted, herror], by simp [hrx], fun _ => hresult⟩

theorem RecordOk.of_untouched {m : Message} (h : Untouched m) : RecordOk m :=
  .of_noReply h.noRx h.noResult (by simp [h.pending]) (by simp [h.pending])

theorem Untouched.armed {m : Message} (h : Untouched m) (s : State) : Dispatched (armed s m) :=
  ⟨h.pending, rfl, h.noRx, h.noResult⟩

theorem RecordOk.of_dispatched {m : Message} (h : Dispatched m) : RecordOk m :=
  .of_noReply h.noRx h.noResult (by simp [h.pending]) (by simp [h.pending])

/-- The record an `Ok` answer leaves (43_sequencer R134). -/
theorem RecordOk.of_received {m : Message} (s : State) {bytes : List Byte} (hlen : bytes.length = m.tx.length) :
    RecordOk { received s m bytes with state := (validate s.cfg m.op m.addr m.count bytes).1 } := by
  rw [received, validate_eq]
  refine ⟨?_, fun bs hbs => ?_, fun hnot => if_neg hnot⟩
  · simpa using validateState_cases s.cfg m.op m.addr m.count bytes
  · exact Option.some.inj hbs ▸ hlen

/-! One record written. -/

theorem memGet_memPut_cases {ms : Memory} {t u : Nat} {m n : Message} (h : memGet (memPut ms t m) u = some n) :
    (u = t ∧ n = m) ∨ (u ≠ t ∧ memGet ms u = some n) := by
  rw [memGet_put] at h
  split at h
  · next hu => exact .inl ⟨hu, (Option.some.inj h).symm⟩
  · next hu => exact .inr ⟨hu, h⟩

section
variable {s s' : State} {t : Nat} {m m' : Message}

theorem StoreInv.congr (h : StoreInv s) (hmsgs : s'.msgs = s.msgs) (htag : s'.nextTag = s.nextTag) : StoreInv s' where
  canonical := hmsgs ▸ h.canonical
  below t m hm := htag ▸ h.below t m (hmsgs ▸ hm)
  present t ht := hmsgs ▸ h.present t (htag ▸ ht)

/-- Writing a record that is there keeps the store. -/
theorem StoreInv.put (h : StoreInv s) (hm : memGet s.msgs t = some m) (hmsgs : s'.msgs = memPut s.msgs t m')
    (htag : s'.nextTag = s.nextTag) : StoreInv s' where
  canonical := hmsgs ▸ memPut_wf _ _ _ h.canonical
  below u n hn := by
    rw [htag]
    rcases memGet_memPut_cases (hmsgs ▸ hn) with ⟨rfl, _⟩ | ⟨_, hold⟩
    · exact h.below u m hm
    · exact h.below u n hold
  present u hu := by
    rw [hmsgs, memGet_put]
    split
    · rfl
    · exact h.present u (htag ▸ hu)

theorem RecordInv.congr (h : RecordInv s) (hmsgs : s'.msgs = s.msgs) : RecordInv s' :=
  recordInv_of_ok fun _ _ hm => h.ok (hmsgs ▸ hm)

theorem RecordInv.put (h : RecordInv s) (hok : RecordOk m') (hmsgs : s'.msgs = memPut s.msgs t m') : RecordInv s' :=
  recordInv_of_ok fun u n hn => by
    rcases memGet_memPut_cases (hmsgs ▸ hn) with ⟨_, rfl⟩ | ⟨_, hold⟩
    · exact hok
    · exact h.ok hold

theorem QueueInv.congr (h : QueueInv s) (hmsgs : s'.msgs = s.msgs) (hq : s'.q = s.q) (hcur : s'.cur = s.cur)
    (hserving : serving s' ↔ serving s) : QueueInv s' where
  sorted := hq ▸ h.sorted
  queued t ht := hmsgs ▸ h.queued t (hq ▸ ht)
  curServing := by rw [hcur, hserving]; exact h.curServing
  current t ht := hmsgs ▸ h.current t (hcur ▸ ht)
  curFirst t u ht hu := h.curFirst t u (hcur ▸ ht) (hq ▸ hu)
  pendingOwned t m hm hpending := by rw [hq, hcur]; exact h.pendingOwned t m (hmsgs ▸ hm) hpending

theorem LogInv.congr (h : LogInv s) (hmsgs : s'.msgs = s.msgs) (hlog : s'.log = s.log) (hcur : s'.cur = s.cur)
    (hq : s'.q = s.q) : LogInv s' where
  increasing := hlog ▸ h.increasing
  entries t c ht := hmsgs ▸ h.entries t c (hlog ▸ ht)
  complete t m hm hended := hlog ▸ h.complete t m (hmsgs ▸ hm) hended
  beforeCur t c u ht hu := h.beforeCur t c u (hlog ▸ ht) (hcur ▸ hu)
  beforeQueue t c u ht hu := h.beforeQueue t c u (hlog ▸ ht) (hq ▸ hu)

theorem BusInv.congr (h : BusInv s) (hmsgs : s'.msgs = s.msgs) (hseq : s'.seq = .inFlight ↔ s.seq = .inFlight)
    (hcur : s'.cur = s.cur) (hbusy : s'.busBusy = s.busBusy) (horphan : s'.orphan = s.orphan) (hbus : s'.bus = s.bus) :
    BusInv s' where
  owned := by rw [hbusy, hseq, horphan]; exact h.owned
  oneOwner := by rw [hseq, horphan]; exact h.oneOwner
  outstanding := by rw [hbus, hbusy]; exact h.outstanding
  curTransfer t m sub hs hc hm hb := h.curTransfer t m sub (hseq.mp hs) (hcur ▸ hc) (hmsgs ▸ hm) (hbus ▸ hb)
  orphanTransfer t ht := by rw [hmsgs, hbus]; exact h.orphanTransfer t (horphan ▸ ht)

/-- With nothing outstanding and no orphan there is nothing to own. -/
theorem BusInv.of_free (hseq : s.seq ≠ .inFlight) (hbusy : s.busBusy = false) (horphan : s.orphan = none)
    (hbus : s.bus = none) : BusInv s where
  owned := by simp [hseq, hbusy, horphan]
  oneOwner := fun hboth => hseq hboth.1
  outstanding := by simp [hbus, hbusy]
  curTransfer _ _ _ hs := absurd hs hseq
  orphanTransfer t ht := by simp [horphan] at ht

/-! What the invariant says of single messages. -/

theorem Inv.pending_of_mem_q (hinv : Inv s) (ht : t ∈ s.q) (hm : memGet s.msgs t = some m) : Untouched m := by
  obtain ⟨n, hn, huntouched⟩ := hinv.queue.queued t ht
  exact Option.some.inj (hn.symm.trans hm) ▸ huntouched

theorem Inv.dispatched_of_cur (hinv : Inv s) (ht : s.cur = some t) (hm : memGet s.msgs t = some m) : Dispatched m := by
  obtain ⟨n, hn, hdispatched⟩ := hinv.queue.current t ht
  exact Option.some.inj (hn.symm.trans hm) ▸ hdispatched

theorem Inv.cur_eq_none_of_idle (hinv : Inv s) (hseq : s.seq = .idle) : s.cur = none := by
  have hnot : ¬ serving s := by simp [hseq]
  exact Option.not_isSome_iff_eq_none.mp (mt hinv.queue.curServing.mp hnot)

/-- A logged message has ended, so it is no Pending one. -/
theorem Inv.ne_of_logged (hinv : Inv s) {u : Nat} {c : Completion} (hu : (u, c) ∈ s.log)
    (hm : memGet s.msgs t = some m) (hpending : m.state = .pending) : u ≠ t := by
  rintro rfl
  obtain ⟨hc, n, hn, hstate⟩ := hinv.logged.entries u c hu
  exact hc (hstate ▸ Option.some.inj (hn.symm.trans hm) ▸ hpending)

/-- The orphan's message has ended, so it is no Pending one. -/
theorem Inv.ne_of_orphan (hinv : Inv s) {u : Nat} (hu : s.orphan = some u)
    (hm : memGet s.msgs t = some m) (hpending : m.state = .pending) : u ≠ t := by
  rintro rfl
  obtain ⟨n, hn, hstate, _⟩ := hinv.bus.orphanTransfer u hu
  have hsame : n = m := Option.some.inj (hn.symm.trans hm)
  cases (hsame ▸ hstate).symm.trans hpending

theorem Inv.msgs_nextTag_eq_none (hinv : Inv s) : memGet s.msgs s.nextTag = none := by
  cases h : memGet s.msgs s.nextTag with
  | none => rfl
  | some m => exact absurd (hinv.store.below _ m h) (lt_irrefl _)

end

/-! The effects of a step, one by one. -/

theorem Inv.portsOnly {s s' : State} (hinv : Inv s) (h : PortsOnly s s') : Inv s' where
  store := hinv.store.congr h.msgs h.nextTag
  records := hinv.records.congr h.msgs
  queue := hinv.queue.congr h.msgs h.q h.cur (by simp [serving, h.seq])
  logged := hinv.logged.congr h.msgs h.log h.cur h.q
  bus := hinv.bus.congr h.msgs (by rw [h.seq]) h.cur h.busBusy h.orphan h.bus
  speed := h.speed hinv.speed

/-- The sequencer changes between states in which it serves no message. -/
theorem Inv.with_seq {s : State} (hinv : Inv s) {seq : SeqState} (stop : Bool) (hold : ¬ serving s)
    (hnew : seq ≠ .waitBus ∧ seq ≠ .inFlight) : Inv { s with seq := seq, stop := stop } where
  store := hinv.store.congr rfl rfl
  records := hinv.records.congr rfl
  queue := hinv.queue.congr rfl rfl rfl (iff_of_false (not_or.mpr hnew) hold)
  logged := hinv.logged.congr rfl rfl rfl rfl
  bus := hinv.bus.congr rfl (iff_of_false hnew.2 fun hflight => hold (.inr hflight)) rfl rfl rfl rfl
  speed := hinv.speed

theorem Inv.enters {s : State} (hinv : Inv s) {m : Message} (hm : Untouched m) : Inv (entered s m) := by
  have hfresh := hinv.msgs_nextTag_eq_none
  have hkeep : ∀ {u n}, memGet s.msgs u = some n → memGet (entered s m).msgs u = some n := fun {u n} hn => by
    have hne : u ≠ s.nextTag := fun hu => by rw [hu, hfresh] at hn; cases hn
    exact (memGet_put_other _ _ hne).trans hn
  have hget : ∀ {u n}, memGet (entered s m).msgs u = some n →
      (u = s.nextTag ∧ n = m) ∨ (u ≠ s.nextTag ∧ memGet s.msgs u = some n) := memGet_memPut_cases
  have hmem : ∀ {u}, u ∈ (entered s m).q → u ∈ s.q ∨ u = s.nextTag := fun hu => by simpa [entered] using hu
  constructor
  case store =>
    refine ⟨memPut_wf _ _ _ hinv.store.canonical, fun u n hn => ?_, fun u hu => ?_⟩
    · rcases hget hn with ⟨rfl, _⟩ | ⟨_, hold⟩
      · exact Nat.lt_succ_self _
      · exact Nat.lt_succ_of_lt (hinv.store.below u n hold)
    · show (memGet (memPut _ _ _) u).isSome = true
      rw [memGet_put]
      split
      · rfl
      · next hne => exact hinv.store.present u (lt_of_le_of_ne (Nat.le_of_lt_succ hu) hne)
  case records => exact hinv.records.put (.of_untouched hm) rfl
  case queue =>
    constructor
    case sorted =>
      exact List.pairwise_append.mpr ⟨hinv.queue.sorted, List.pairwise_singleton ..,
        fun u hu v hv => List.mem_singleton.mp hv ▸ hinv.queued_lt_nextTag hu⟩
    case queued =>
      intro u hu
      rcases hmem hu with hold | rfl
      · obtain ⟨n, hn, huntouched⟩ := hinv.queue.queued u hold
        exact ⟨n, hkeep hn, huntouched⟩
      · exact ⟨m, memGet_put_same .., hm⟩
    case curServing => exact hinv.queue.curServing
    case current =>
      intro u hu
      obtain ⟨n, hn, hdispatched⟩ := hinv.queue.current u hu
      exact ⟨n, hkeep hn, hdispatched⟩
    case curFirst =>
      intro u v hu hv
      rcases hmem hv with hold | rfl
      · exact hinv.queue.curFirst u v hu hold
      · exact hinv.cur_lt_nextTag hu
    case pendingOwned =>
      intro u n hn hpending
      rcases hget hn with ⟨rfl, _⟩ | ⟨_, hold⟩
      · exact .inl (List.mem_append_right _ List.mem_cons_self)
      · exact (hinv.queue.pendingOwned u n hold hpending).imp_left (List.mem_append_left _)
  case logged =>
    constructor
    case increasing => exact hinv.logged.increasing
    case entries =>
      intro u c hu
      obtain ⟨hc, n, hn, hstate⟩ := hinv.logged.entries u c hu
      exact ⟨hc, n, hkeep hn, hstate⟩
    case complete =>
      intro u n hn hended
      rcases hget hn with ⟨_, rfl⟩ | ⟨_, hold⟩
      · exact absurd hm.pending hended
      · exact hinv.logged.complete u n hold hended
    case beforeCur => exact hinv.logged.beforeCur
    case beforeQueue =>
      intro u c v hu hv
      rcases hmem hv with hold | rfl
      · exact hinv.logged.beforeQueue u c v hu hold
      · obtain ⟨_, n, hn, _⟩ := hinv.logged.entries u c hu
        exact hinv.store.below u n hn
  case bus =>
    refine ⟨hinv.bus.owned, hinv.bus.oneOwner, hinv.bus.outstanding, fun u n sub hseq hcur hn hsub => ?_, fun u hu => ?_⟩
    · rcases hget hn with ⟨rfl, _⟩ | ⟨_, hold⟩
      · exact absurd (hinv.cur_lt_nextTag hcur) (lt_irrefl _)
      · exact hinv.bus.curTransfer u n sub hseq hcur hold hsub
    · obtain ⟨n, hn, hrest⟩ := hinv.bus.orphanTransfer u hu
      exact ⟨n, hkeep hn, hrest⟩
  case speed => exact hinv.speed

theorem Inv.waits {s : State} (hinv : Inv s) {t : Nat} {rest : List Nat} {m : Message} (hseq : s.seq = .idle)
    (hq : s.q = t :: rest) (hm : memGet s.msgs t = some m) : Inv (s.takeHead t rest (armed s m)).awaitBus := by
  have htq : t ∈ s.q := hq ▸ List.mem_cons_self
  have huntouched : Untouched m := hinv.pending_of_mem_q htq hm
  have hnone : s.cur = none := hinv.cur_eq_none_of_idle hseq
  have hrest : ∀ {u}, u ∈ rest → u ∈ s.q := fun hu => hq ▸ List.mem_cons_of_mem t hu
  have hlt : ∀ {u}, u ∈ rest → t < u := fun hu => hinv.head_lt_of_mem_rest hq hu
  have hkeep : ∀ {u}, u ≠ t → memGet (memPut s.msgs t (armed s m)) u = memGet s.msgs u := memGet_put_other _ _
  constructor
  case store => exact hinv.store.put hm rfl rfl
  case records => exact hinv.records.put (.of_dispatched (huntouched.armed s)) rfl
  case queue =>
    constructor
    case sorted => exact (List.pairwise_cons.mp (hq ▸ hinv.queue.sorted)).2
    case queued =>
      intro u hu
      obtain ⟨n, hn, hn'⟩ := hinv.queue.queued u (hrest hu)
      exact ⟨n, (hkeep (hlt hu).ne').trans hn, hn'⟩
    case curServing => exact iff_of_true rfl (.inl rfl)
    case current =>
      intro u hu
      obtain rfl := Option.some.inj hu
      exact ⟨_, memGet_put_same .., huntouched.armed s⟩
    case curFirst =>
      intro u v hu hv
      exact Option.some.inj hu ▸ hlt hv
    case pendingOwned =>
      intro u n hn hpending
      rcases memGet_memPut_cases hn with ⟨rfl, _⟩ | ⟨hne, hold⟩
      · exact .inr rfl
      · rcases hinv.queue.pendingOwned u n hold hpending with hu | hu
        · exact .inl ((List.mem_cons.mp (hq ▸ hu)).resolve_left hne)
        · cases hnone.symm.trans hu
  case logged =>
    constructor
    case increasing => exact hinv.logged.increasing
    case entries =>
      intro u c hu
      obtain ⟨hc, n, hn, hstate⟩ := hinv.logged.entries u c hu
      exact ⟨hc, n, (hkeep (hinv.ne_of_logged hu hm huntouched.pending)).trans hn, hstate⟩
    case complete =>
      intro u n hn hended
      rcases memGet_memPut_cases hn with ⟨_, rfl⟩ | ⟨_, hold⟩
      · exact absurd huntouched.pending hended
      · exact hinv.logged.complete u n hold hended
    case beforeCur =>
      intro u c v hu hv
      exact Option.some.inj hv ▸ hinv.logged.beforeQueue u c t hu htq
    case beforeQueue => exact fun u c v hu hv => hinv.logged.beforeQueue u c v hu (hrest hv)
  case bus =>
    have howned := hinv.bus.owned
    rw [hseq] at howned
    refine ⟨by simpa using howned, by simp, hinv.bus.outstanding, fun _ _ _ hs => by simp at hs, fun u hu => ?_⟩
    obtain ⟨n, hn, hn'⟩ := hinv.bus.orphanTransfer u hu
    exact ⟨n, (hkeep (hinv.ne_of_orphan hu hm huntouched.pending)).trans hn, hn'⟩
  case speed => exact hinv.speed

theorem Inv.submits {s : State} (hinv : Inv s) {t : Nat} {m : Message} (hseq : s.seq = .waitBus)
    (hcur : s.cur = some t) (hm : memGet s.msgs t = some m) (hfree : s.busBusy = false) : Inv (s.submit t m) where
  store := hinv.store.congr rfl rfl
  records := hinv.records.congr rfl
  queue := hinv.queue.congr rfl rfl rfl (iff_of_true (.inr rfl) (.inl hseq))
  logged := hinv.logged.congr rfl rfl rfl rfl
  bus := by
    have horphan : s.orphan = none := by
      have hnot : ¬ s.orphan.isSome = true := fun ho => by
        have := hinv.bus.owned.mpr (.inr ho)
        simp [hfree] at this
      exact Option.not_isSome_iff_eq_none.mp hnot
    refine ⟨by simp, by simp [horphan], by simp, fun u n sub _ hu hn hsub => ?_, fun u hu => by simp [horphan] at hu⟩
    obtain rfl : t = u := Option.some.inj (hcur.symm.trans hu)
    obtain rfl : m = n := Option.some.inj (hm.symm.trans hn)
    obtain rfl := Option.some.inj hsub
    exact ⟨rfl, rfl⟩
  speed := hinv.speed

theorem Inv.discards {s : State} (hinv : Inv s) (horphan : s.orphan.isSome = true) : Inv s.discardOrphan where
  store := hinv.store.congr rfl rfl
  records := hinv.records.congr rfl
  queue := hinv.queue.congr rfl rfl rfl Iff.rfl
  logged := hinv.logged.congr rfl rfl rfl rfl
  bus := .of_free (fun hseq => hinv.bus.oneOwner ⟨hseq, horphan⟩) rfl rfl rfl
  speed := hinv.speed

/-- The message `t` ends: its record is written, it is logged, and the sequencer serves no message any more. -/
structure Ends (s s' : State) (t : Nat) (m : Message) : Prop where
  msgs : s'.msgs = memPut s.msgs t m
  log : s'.log = s.log ++ [(t, m.state)]
  cur : s'.cur = none
  idle : ¬ serving s'
  q : s'.q = s.q
  nextTag : s'.nextTag = s.nextTag
  speed : s'.speed = s.speed

theorem not_serving_afterCompletion {s : State} (h : s.seq = afterCompletion s.stop) : ¬ serving s := by
  cases hstop : s.stop <;> simp [serving, h, afterCompletion, hstop]

theorem ends_finish (s : State) (t : Nat) (m : Message) (c : Completion) :
    Ends s (s.releaseBus.finish t m c) t { m with state := c } :=
  ⟨rfl, rfl, rfl, not_serving_afterCompletion rfl, rfl, rfl, rfl⟩

theorem ends_expireMessage (s : State) (t : Nat) (m : Message) :
    Ends s (expireMessage t m s) t { m with state := .timedOut } :=
  ⟨rfl, rfl, rfl, not_serving_afterCompletion rfl, rfl, rfl, rfl⟩

/-- Ending the current message in order keeps all but what the bus is owed. -/
theorem Inv.ends {s s' : State} (hinv : Inv s) {t : Nat} {m m' : Message} (hcur : s.cur = some t)
    (hm : memGet s.msgs t = some m) (hends : Ends s s' t m') (hok : RecordOk m') (hended : m'.state ≠ .pending)
    (hbus : BusInv s') : Inv s' := by
  have hpending : m.state = .pending := (hinv.dispatched_of_cur hcur hm).pending
  have hkeep : ∀ {u}, u ≠ t → memGet s'.msgs u = memGet s.msgs u := fun hu => by
    rw [hends.msgs]
    exact memGet_put_other _ _ hu
  have hget : ∀ {u n}, memGet s'.msgs u = some n → (u = t ∧ n = m') ∨ (u ≠ t ∧ memGet s.msgs u = some n) :=
    fun hn => memGet_memPut_cases (hends.msgs ▸ hn)
  have hlog : ∀ {u c}, (u, c) ∈ s'.log → (u, c) ∈ s.log ∨ (u = t ∧ c = m'.state) := fun hu => by
    rw [hends.log] at hu
    simpa using hu
  have hnone : ∀ {u}, s'.cur ≠ some u := by simp [hends.cur]
  constructor
  case store => exact hinv.store.put hm hends.msgs hends.nextTag
  case records => exact hinv.records.put hok hends.msgs
  case queue =>
    constructor
    case sorted => exact hends.q ▸ hinv.queue.sorted
    case queued =>
      intro u hu
      rw [hends.q] at hu
      obtain ⟨n, hn, hn'⟩ := hinv.queue.queued u hu
      exact ⟨n, (hkeep (hinv.queue.curFirst t u hcur hu).ne').trans hn, hn'⟩
    case curServing => exact iff_of_false (by simp [hends.cur]) hends.idle
    case current => exact fun u hu => absurd hu hnone
    case curFirst => exact fun u v hu => absurd hu hnone
    case pendingOwned =>
      intro u n hn hpend
      rcases hget hn with ⟨_, rfl⟩ | ⟨hne, hold⟩
      · exact absurd hpend hended
      · rcases hinv.queue.pendingOwned u n hold hpend with hu | hu
        · exact .inl (hends.q ▸ hu)
        · exact absurd (Option.some.inj (hu.symm.trans hcur)) hne
  case logged =>
    constructor
    case increasing =>
      rw [hends.log, List.map_append]
      refine List.pairwise_append.mpr ⟨hinv.logged.increasing, List.pairwise_singleton .., fun u hu v hv => ?_⟩
      obtain ⟨⟨w, c⟩, hw, rfl⟩ := List.mem_map.mp hu
      obtain rfl : v = t := by simpa using hv
      exact hinv.logged.beforeCur w c v hw hcur
    case entries =>
      intro u c hu
      rcases hlog hu with hold | ⟨rfl, rfl⟩
      · obtain ⟨hc, n, hn, hstate⟩ := hinv.logged.entries u c hold
        exact ⟨hc, n, (hkeep (hinv.ne_of_logged hold hm hpending)).trans hn, hstate⟩
      · exact ⟨hended, m', by rw [hends.msgs, memGet_put_same], rfl⟩
    case complete =>
      intro u n hn hdone
      rw [hends.log, List.mem_append]
      rcases hget hn with ⟨rfl, rfl⟩ | ⟨_, hold⟩
      · exact .inr List.mem_cons_self
      · exact .inl (hinv.logged.complete u n hold hdone)
    case beforeCur => exact fun u c v _ hv => absurd hv hnone
    case beforeQueue =>
      intro u c v hu hv
      rw [hends.q] at hv
      rcases hlog hu with hold | ⟨rfl, _⟩
      · exact hinv.logged.beforeQueue u c v hold hv
      · exact hinv.queue.curFirst u v hcur hv
  case bus => exact hbus
  case speed => exact hends.speed ▸ hinv.speed

/-- An answer that fits the outstanding frame is as long as the current message's frame (43_sequencer R129, R132). -/
theorem Inv.answer_length {s : State} (hinv : Inv s) {t : Nat} {m : Message} {bytes : List Byte}
    (hseq : s.seq = .inFlight) (hcur : s.cur = some t) (hm : memGet s.msgs t = some m)
    (hfits : answerFits s (.ok bytes) = true) : bytes.length = m.tx.length := by
  cases hbus : s.bus with
  | none => simp [answerFits, hbus] at hfits
  | some sub =>
    obtain ⟨htx, _⟩ := hinv.bus.curTransfer t m sub hseq hcur hm hbus
    exact htx ▸ (answerFits_iff hbus).mp hfits bytes rfl

theorem Inv.answers {s : State} (hinv : Inv s) {t : Nat} {m : Message} {a : BusAnswer} (hseq : s.seq = .inFlight)
    (hcur : s.cur = some t) (hm : memGet s.msgs t = some m) (hfits : answerFits s a = true)
    (horphan : s.orphan = none) : Inv (answerCurrent t m a s) := by
  have hdispatched := hinv.dispatched_of_cur hcur hm
  have hfree : ∀ n c, BusInv (s.releaseBus.finish t n c) := fun n c =>
    .of_free (fun hflight => not_serving_afterCompletion (s := s.releaseBus.finish t n c) rfl (.inr hflight)) rfl horphan rfl
  cases a with
  | fail =>
    have hok : RecordOk { m with state := .transportError } :=
      .of_noReply hdispatched.noRx hdispatched.noResult (by simp) (by simp)
    exact hinv.ends hcur hm (ends_finish s t m .transportError) hok (by simp) (hfree ..)
  | ok bytes =>
    have hok := RecordOk.of_received s (hinv.answer_length hseq hcur hm hfits)
    refine hinv.ends hcur hm (ends_finish s t (received s m bytes) _) hok ?_ (hfree ..)
    rw [validate_eq]
    rcases validateState_cases s.cfg m.op m.addr m.count bytes with h | h <;> simp [h]

theorem Inv.expires {s : State} (hinv : Inv s) {t : Nat} {m : Message} (hcur : s.cur = some t)
    (hm : memGet s.msgs t = some m) : Inv (expireMessage t m s) := by
  have hdispatched := hinv.dispatched_of_cur hcur hm
  have hok : RecordOk { m with state := .timedOut } :=
    .of_noReply hdispatched.noRx hdispatched.noResult (by simp) (by simp)
  have hends := ends_expireMessage s t m
  refine hinv.ends hcur hm hends hok (by simp) ?_
  have hidle : (expireMessage t m s).seq ≠ .inFlight := fun h => hends.idle (.inr h)
  by_cases hseq : s.seq = .inFlight
  · have hmarked : (expireMessage t m s).orphan = some t := if_pos hseq
    have hbusy : (expireMessage t m s).busBusy = true := hinv.bus.owned.mpr (.inl hseq)
    refine ⟨iff_of_true hbusy (.inr (hmarked ▸ rfl)), fun hboth => hidle hboth.1, hinv.bus.outstanding,
      fun _ _ _ h => absurd h hidle, fun u hu => ?_⟩
    obtain rfl : t = u := Option.some.inj (hmarked.symm.trans hu)
    exact ⟨_, memGet_put_same .., rfl, fun sub hsub => hinv.bus.curTransfer t m sub hseq hcur hm hsub⟩
  · have hkept : (expireMessage t m s).orphan = s.orphan := if_neg hseq
    have howned : s.busBusy = true ↔ s.orphan.isSome = true := by
      have := hinv.bus.owned
      simpa [hseq] using this
    refine ⟨?_, fun hboth => hidle hboth.1, hinv.bus.outstanding, fun _ _ _ h => absurd h hidle, fun u hu => ?_⟩
    · rw [hkept]
      exact howned.trans (or_iff_right hidle).symm
    · rw [hkept] at hu
      obtain ⟨n, hn, hn'⟩ := hinv.bus.orphanTransfer u hu
      exact ⟨n, (memGet_put_other _ _ (hinv.ne_of_orphan hu hm hdispatched.pending)).trans hn, hn'⟩

theorem untouched_acceptedRecord (cfg : Config) (i : Instr) : Untouched (acceptedRecord cfg i) := ⟨rfl, rfl, rfl, rfl⟩

theorem Inv.effect {s s' : State} (hinv : Inv s) (h : Effect s s') : Inv s' := by
  cases h with
  | ports h => exact hinv.portsOnly h
  | enters _ => exact hinv.enters (untouched_acceptedRecord ..)
  | stops hseq _ => exact hinv.with_seq s.stop (by simp [hseq]) (by simp)
  | waits hseq _ hq hm => exact hinv.waits hseq hq hm
  | dispatches hseq _ hq hm hfree =>
    rw [takeHead_submit_eq]
    exact (hinv.waits hseq hq hm).submits rfl rfl (memGet_put_same ..) hfree
  | submits hseq hcur hm hfree => exact hinv.submits hseq hcur hm hfree
  | discards _ horphan => exact hinv.discards horphan
  | answers hseq hcur hm hfits horphan => exact hinv.answers hseq hcur hm hfits horphan
  | expires _ hcur hm => exact hinv.expires hcur hm

theorem Inv.acts {s s' : State} (hinv : Inv s) (h : Acts s s') : Inv s' := by
  obtain ⟨es, held, r, es', heffect, rfl⟩ := h
  exact ((hinv.with_sched_blocked es held).effect heffect).with_sched_blocked es' r.blocked

theorem Inv.starts {s s' : State} (hinv : Inv s) (h : Starts s s') : Inv s' := by
  obtain ⟨hseq, es, rfl⟩ := h
  exact (hinv.with_seq false (by simp [hseq]) (by simp)).with_sched_blocked es s.blocked

/-- Settles O48: Start, and each effect of the other steps, keep the invariant. -/
theorem everyStepKeepsInv : Obligations.EveryStepKeepsInv := by
  intro s s' hinv h
  rcases step_acts h with ⟨_, hstart⟩ | hacts
  · exact hinv.starts hstart
  · exact hinv.acts hacts

end Sys2Proof.Safety
end

section
/-! PROOFS. What runs keep besides the invariant: the reset state, the requests behind the records, the life of a message, the order of
dispatch, the transfer on the bus, `stop`, and that no step but a host read or a decoding stops the block. -/

namespace Sys2Proof.Safety

open Sys2Proof.Machine

/-! Reset. -/

theorem inv_reset : Inv State.reset where
  store := ⟨List.Pairwise.nil, by simp [State.reset], by simp [State.reset]⟩
  records := recordInv_of_ok (by simp [State.reset])
  queue := ⟨List.Pairwise.nil, by simp [State.reset], by simp [State.reset], by simp [State.reset], by simp [State.reset],
    by simp [State.reset]⟩
  logged := ⟨List.Pairwise.nil, by simp [State.reset], by simp [State.reset], by simp [State.reset],
    by simp [State.reset]⟩
  bus := .of_free (by simp [State.reset]) rfl rfl rfl
  speed := Nat.succ_pos _

/-- Settles O47: at reset there is no message, nothing submitted and nothing outstanding. -/
theorem resetIsSafe : Obligations.ResetIsSafe := by
  refine ⟨inv_reset, ⟨List.Pairwise.nil, ?_, ?_, ?_, ?_⟩, ?_⟩
  all_goals simp [State.reset, submittedTags, RequestInv]

/-! One message, one owner. -/

/-- A Pending message with an armed deadline is the current one. -/
theorem Inv.cur_of_armed {s : State} (hinv : Inv s) {t : Nat} {m : Message} (hm : memGet s.msgs t = some m)
    (hpending : m.state = .pending) (harmed : m.deadline.isSome = true) : s.cur = some t := by
  refine (hinv.queue.pendingOwned t m hm hpending).resolve_left fun ht => ?_
  simp [(hinv.pending_of_mem_q ht hm).noDeadline] at harmed

/-- Settles O52, read off the invariant: a queued message has no deadline, and the bus has one owner. -/
theorem oneMessageInFlight : Obligations.OneMessageInFlight := by
  intro s hinv
  refine ⟨fun t u m n hm hn hpending hpending' harmed harmed' => ?_, fun hbusy => ?_⟩
  · have ht := hinv.cur_of_armed hm hpending harmed
    have hu := hinv.cur_of_armed hn hpending' harmed'
    exact ⟨Option.some.inj (ht.symm.trans hu), ht⟩
  · have hone := hinv.bus.oneOwner
    rcases hinv.bus.owned.mp hbusy with hflight | horphan
    · have hcur := hinv.queue.curServing.mpr (.inr hflight)
      have hnone : s.orphan = none := Option.not_isSome_iff_eq_none.mp fun h => hone ⟨hflight, h⟩
      exact .inl ⟨(Option.isSome_iff_exists.mp hcur).imp fun t ht => ⟨ht, hflight⟩, hnone⟩
    · exact .inr ⟨fun ⟨_, _, hflight⟩ => hone ⟨hflight, horphan⟩, Option.isSome_iff_exists.mp horphan⟩

/-! What acceptance wrote once (10_state R26, R27). -/

theorem SameRequest.refl (m : Message) : SameRequest m m := ⟨rfl, rfl, rfl, rfl, rfl, rfl⟩

theorem SameRequest.trans {m n k : Message} (h : SameRequest m n) (h' : SameRequest n k) : SameRequest m k :=
  ⟨h'.op.trans h.op, h'.addr.trans h.addr, h'.count.trans h.count, h'.values.trans h.values, h'.tx.trans h.tx,
    h'.segs.trans h.segs⟩

theorem sameRequest_armed (s : State) (m : Message) : SameRequest m (armed s m) := ⟨rfl, rfl, rfl, rfl, rfl, rfl⟩

theorem sameRequest_state (m : Message) (c : Completion) : SameRequest m { m with state := c } :=
  ⟨rfl, rfl, rfl, rfl, rfl, rfl⟩

theorem sameRequest_received (s : State) (m : Message) (bytes : List Byte) (c : Completion) :
    SameRequest m { received s m bytes with state := c } := ⟨rfl, rfl, rfl, rfl, rfl, rfl⟩

/-- What an effect does to the store: nothing, a new record for an accepted request, or one record of the same request written anew,
which is the head of the queue becoming current or the current message ending. -/
inductive StoreEffect (s s' : State) : Prop
  | same (hmsgs : s'.msgs = s.msgs) (hcur : s'.cur = s.cur) (hlog : s'.log = s.log)
  | added {i : Instr} (hcheck : check s.cfg i.op i.construction = none)
    (hmsgs : s'.msgs = memPut s.msgs s.nextTag (acceptedRecord s.cfg i)) (hcur : s'.cur = s.cur) (hlog : s'.log = s.log)
  | served {t : Nat} {rest : List Nat} {m m' : Message} (hidle : s.seq = .idle) (hq : s.q = t :: rest) (hm : memGet s.msgs t = some m)
    (hsame : SameRequest m m') (hstate : m'.state = m.state) (hmsgs : s'.msgs = memPut s.msgs t m')
    (hcur : s'.cur = some t) (hlog : s'.log = s.log)
  | ended {t : Nat} {m m' : Message} (ht : s.cur = some t) (hm : memGet s.msgs t = some m) (hsame : SameRequest m m')
    (hended : m'.state ≠ .pending) (hends : Ends s s' t m')

/-- An answer leaves the record of the same request, ended, and the message ends with it (43_sequencer R133, R134). -/
theorem answerCurrent_ends (s : State) (t : Nat) (m : Message) (a : BusAnswer) :
    ∃ m', SameRequest m m' ∧ m'.state ≠ .pending ∧ Ends s (answerCurrent t m a s) t m' := by
  cases a with
  | fail => exact ⟨_, sameRequest_state m .transportError, by simp, ends_finish ..⟩
  | ok bytes =>
    refine ⟨_, sameRequest_received s m bytes _, ?_, ends_finish ..⟩
    rw [validate_eq]
    rcases validateState_cases s.cfg m.op m.addr m.count bytes with h | h <;> simp [h]

theorem Effect.storeEffect {s s' : State} (h : Effect s s') : StoreEffect s s' := by
  cases h with
  | ports h => exact .same h.msgs h.cur h.log
  | enters hcheck => exact .added hcheck rfl rfl rfl
  | stops => exact .same rfl rfl rfl
  | waits hseq _ hq hm => exact .served hseq hq hm (sameRequest_armed ..) rfl rfl rfl rfl
  | dispatches hseq _ hq hm _ => exact .served hseq hq hm (sameRequest_armed ..) rfl rfl rfl rfl
  | submits => exact .same rfl rfl rfl
  | discards => exact .same rfl rfl rfl
  | answers _ hcur hm _ _ =>
    obtain ⟨m', hsame, hended, hends⟩ := answerCurrent_ends s _ _ _
    exact .ended hcur hm hsame hended hends
  | expires _ hcur hm => exact .ended hcur hm (sameRequest_state ..) (by simp) (ends_expireMessage ..)

/-- The store effect looks at neither the schedule nor the held producers. -/
theorem StoreEffect.of_sched_blocked {s r : State} {es es' : List Event} {held : List Instr}
    (h : StoreEffect { s with sched := es, blocked := held } r) : StoreEffect s { r with sched := es' } := by
  cases h with
  | same hmsgs hcur hlog => exact .same hmsgs hcur hlog
  | added hcheck hmsgs hcur hlog => exact .added hcheck hmsgs hcur hlog
  | served hidle hq hm hsame hstate hmsgs hcur hlog => exact .served hidle hq hm hsame hstate hmsgs hcur hlog
  | ended ht hm hsame hended hends => exact .ended ht hm hsame hended { hends with }

/-- What any step does to the store. -/
theorem step_storeEffect {s s' : State} (h : step s = .next s') : StoreEffect s s' := by
  rcases step_acts h with ⟨_, _, es, rfl⟩ | ⟨es, held, r, es', heffect, rfl⟩
  · exact .same rfl rfl rfl
  · exact heffect.storeEffect.of_sched_blocked

/-- Settles O50: a new record is an accepted request's, and a record written anew stays of its request. -/
theorem messagesKeepTheirFrames : Obligations.MessagesKeepTheirFrames := by
  intro s s' hreq h t m' hm'
  rw [step_cfg h]
  cases step_storeEffect h with
  | same hmsgs => exact hreq t m' (hmsgs ▸ hm')
  | @added i hcheck hmsgs =>
    rcases memGet_memPut_cases (hmsgs ▸ hm') with ⟨_, rfl⟩ | ⟨_, hold⟩
    · exact ⟨i, hcheck, .refl _⟩
    · exact hreq t m' hold
  | served _ _ hm hsame _ hmsgs =>
    rcases memGet_memPut_cases (hmsgs ▸ hm') with ⟨rfl, rfl⟩ | ⟨_, hold⟩
    · obtain ⟨i, hcheck, hi⟩ := hreq t _ hm
      exact ⟨i, hcheck, hi.trans hsame⟩
    · exact hreq t m' hold
  | ended _ hm hsame _ hends =>
    rcases memGet_memPut_cases (hends.msgs ▸ hm') with ⟨rfl, rfl⟩ | ⟨_, hold⟩
    · obtain ⟨i, hcheck, hi⟩ := hreq t _ hm
      exact ⟨i, hcheck, hi.trans hsame⟩
    · exact hreq t m' hold

/-! The life of a message (10_state R29, 43_sequencer R142). -/

/-- What one record becomes in a step: of the same request, unchanged if it had ended, of another state only while current. -/
structure RecordStep (s : State) (t : Nat) (m m' : Message) : Prop where
  same : SameRequest m m'
  ended : m.state ≠ .pending → m' = m
  current : m'.state ≠ m.state → s.cur = some t

theorem RecordStep.refl (s : State) (t : Nat) (m : Message) : RecordStep s t m m :=
  ⟨.refl m, fun _ => rfl, fun h => absurd rfl h⟩

/-- A record written anew is the one found under its tag, and every other stays. -/
theorem exists_memGet_memPut {ms : Memory} {t u : Nat} {m m' n : Message} {P : Nat → Message → Message → Prop}
    (hm : memGet ms t = some m) (hn : memGet ms u = some n) (hput : P t m m') (hrefl : P u n n) :
    ∃ n', memGet (memPut ms t m') u = some n' ∧ P u n n' := by
  by_cases hu : u = t
  · subst hu
    obtain rfl := Option.some.inj (hm.symm.trans hn)
    exact ⟨m', memGet_put_same .., hput⟩
  · exact ⟨n, (memGet_put_other _ _ hu).trans hn, hrefl⟩

theorem Inv.recordStep {s s' : State} (hinv : Inv s) (h : StoreEffect s s') {u : Nat} {n : Message}
    (hn : memGet s.msgs u = some n) : ∃ n', memGet s'.msgs u = some n' ∧ RecordStep s u n n' := by
  cases h with
  | same hmsgs => exact ⟨n, hmsgs ▸ hn, .refl ..⟩
  | added _ hmsgs =>
    have hne : u ≠ s.nextTag := (hinv.store.below u n hn).ne
    exact ⟨n, by rw [hmsgs, memGet_put_other _ _ hne, hn], .refl ..⟩
  | @served t rest m m' _ hq hm hsame hstate hmsgs =>
    have hpending := (hinv.pending_of_mem_q (hq ▸ List.mem_cons_self) hm).pending
    rw [hmsgs]
    exact exists_memGet_memPut (P := RecordStep s) hm hn
      ⟨hsame, fun hended => absurd hpending hended, fun hne => absurd hstate hne⟩ (.refl ..)
  | @ended t m m' ht hm hsame _ hends =>
    have hpending := (hinv.dispatched_of_cur ht hm).pending
    rw [hends.msgs]
    exact exists_memGet_memPut (P := RecordStep s) hm hn
      ⟨hsame, fun hended => absurd hpending hended, fun _ => ht⟩ (.refl ..)

/-- A record that was not there is an accepted request's. -/
theorem StoreEffect.pending_of_new {s s' : State} (h : StoreEffect s s') {u : Nat} {n : Message}
    (hnone : memGet s.msgs u = none) (hn : memGet s'.msgs u = some n) : n.state = .pending := by
  cases h with
  | same hmsgs => cases hnone.symm.trans (hmsgs ▸ hn)
  | added _ hmsgs =>
    rcases memGet_memPut_cases (hmsgs ▸ hn) with ⟨_, rfl⟩ | ⟨_, hold⟩
    · rfl
    · cases hnone.symm.trans hold
  | served _ _ hm _ _ hmsgs =>
    rcases memGet_memPut_cases (hmsgs ▸ hn) with ⟨rfl, _⟩ | ⟨_, hold⟩
    · cases hnone.symm.trans hm
    · cases hnone.symm.trans hold
  | ended _ hm _ _ hends =>
    rcases memGet_memPut_cases (hends.msgs ▸ hn) with ⟨rfl, _⟩ | ⟨_, hold⟩
    · cases hnone.symm.trans hm
    · cases hnone.symm.trans hold

/-- The log grows by the current message, as it ends. -/
theorem Inv.log_step {s s' : State} (hinv : Inv s) (h : StoreEffect s s') :
    s'.log = s.log ∨ ∃ t c, s.cur = some t ∧ stateOf s t = some .pending ∧ stateOf s' t = some c ∧ c ≠ .pending ∧
      s'.log = s.log ++ [(t, c)] := by
  cases h with
  | same _ _ hlog => exact .inl hlog
  | added _ _ _ hlog => exact .inl hlog
  | served _ _ _ _ _ _ _ hlog => exact .inl hlog
  | @ended t m m' ht hm _ hended hends =>
    have hpending := (hinv.dispatched_of_cur ht hm).pending
    exact .inr ⟨t, m'.state, ht, by simp [stateOf, hm, hpending], by simp [stateOf, hends.msgs], hended, hends.log⟩

/-- Settles O51, by the effect of the step on the store. -/
theorem messageEndsOnceAsCurrent : Obligations.MessageEndsOnceAsCurrent := by
  intro s s' hinv h
  have hstore := step_storeEffect h
  refine ⟨fun t m hm => ?_, fun t m' => hstore.pending_of_new, hinv.log_step hstore⟩
  obtain ⟨m', hm', hrec⟩ := hinv.recordStep hstore hm
  exact ⟨m', hm', hrec.same, hrec.ended, hrec.current⟩

/-- Settles O53: only the head of the queue becomes current, and the queue rises. -/
theorem fifoOrder : Obligations.FifoOrder := by
  intro s hinv
  refine ⟨hinv.logged.increasing, fun s' t h hold hnew => ?_⟩
  cases step_storeEffect h with
  | same _ hcur => exact absurd (hcur ▸ hnew) hold
  | added _ _ hcur => exact absurd (hcur ▸ hnew) hold
  | @served u rest _ _ _ hq _ _ _ _ hcur =>
    obtain rfl := Option.some.inj (hcur.symm.trans hnew)
    refine ⟨hq ▸ List.mem_cons_self, fun v hv => ?_⟩
    rcases List.mem_cons.mp (hq ▸ hv) with rfl | hrest
    · exact le_rfl
    · exact (hinv.head_lt_of_mem_rest hq hrest).le
  | ended _ _ _ _ hends => cases hends.cur.symm.trans hnew

/-! The transfer on the bus (43_sequencer R144). -/

/-- What a step does to the outstanding submission: it stays and nothing is submitted, it goes and nothing is submitted, or, with
nothing outstanding, one is submitted at SPEED. -/
inductive BusEffect (s s' : State) : Prop
  | kept (hbus : s'.bus = s.bus) (hout : ∃ os, s'.out = s.out ++ os ∧ ∀ t sub, Output.submitted t sub ∉ os)
  | released (hbus : s'.bus = none) (hout : ∃ os, s'.out = s.out ++ os ∧ ∀ t sub, Output.submitted t sub ∉ os)
  | submitted {t : Nat} {sub : Submission} (hfree : s.busBusy = false) (hbus : s'.bus = some sub)
    (hspeed : sub.hz = s.speed) (hout : s'.out = s.out ++ [.submitted t sub])

theorem noSubmission_completion (os : List Output) (t : Nat) (c : Completion) :
    ∃ added, os ++ [.completion t c] = os ++ added ∧ ∀ u sub, Output.submitted u sub ∉ added :=
  ⟨_, rfl, by simp⟩

theorem Effect.busEffect {s s' : State} (h : Effect s s') : BusEffect s s' := by
  cases h with
  | ports h => exact .kept h.bus h.out
  | enters => exact .kept rfl ⟨_, rfl, by simp⟩
  | stops => exact .kept rfl (noSubmission_nil _)
  | waits => exact .kept rfl (noSubmission_nil _)
  | dispatches _ _ _ _ hfree => exact .submitted hfree rfl rfl rfl
  | submits _ _ _ hfree => exact .submitted hfree rfl rfl rfl
  | discards => exact .released rfl (noSubmission_nil _)
  | @answers _ _ a =>
    cases a with
    | fail => exact .released rfl (noSubmission_completion ..)
    | ok bytes => exact .released rfl (noSubmission_completion ..)
  | expires => exact .kept rfl (noSubmission_completion ..)

theorem step_busEffect {s s' : State} (h : step s = .next s') : BusEffect s s' := by
  rcases step_acts h with ⟨_, _, es, rfl⟩ | ⟨es, held, r, es', heffect, rfl⟩
  · exact .kept rfl (noSubmission_nil _)
  · cases heffect.busEffect with
    | kept hbus hout => exact .kept hbus hout
    | released hbus hout => exact .released hbus hout
    | submitted hfree hbus hspeed hout => exact .submitted hfree hbus hspeed hout

/-- Answers that are no submissions do not end in one. -/
theorem out_ne_submitted {out out' : List Output} {t : Nat} {sub : Submission}
    (hout : ∃ os, out' = out ++ os ∧ ∀ u sub, Output.submitted u sub ∉ os) :
    out' ≠ out ++ [.submitted t sub] := by
  obtain ⟨os, rfl, hos⟩ := hout
  intro h
  exact hos t sub (List.append_cancel_left h ▸ List.mem_cons_self)

/-- Settles O38: the invariant rules out a submission over an outstanding one. -/
theorem rateSampledAtSubmission : Obligations.RateSampledAtSubmission := by
  intro s s' hinv h
  cases step_busEffect h with
  | kept hbus hout =>
    refine ⟨fun t sub hsub => absurd hsub (out_ne_submitted hout), fun sub hsub => .inl (hbus.trans hsub),
      fun sub hnone hsub => ?_⟩
    cases (hbus.trans hnone).symm.trans hsub
  | released hbus hout =>
    refine ⟨fun t sub hsub => absurd hsub (out_ne_submitted hout), fun sub _ => .inr hbus, fun sub _ hsub => ?_⟩
    cases hbus.symm.trans hsub
  | @submitted t' sub' hfree hbus hspeed hout =>
    have hnone : s.bus = none := by
      have := hinv.bus.outstanding
      rwa [hfree, Option.isSome_eq_false_iff, Option.isNone_iff_eq_none] at this
    refine ⟨fun t sub hsub => ?_, fun sub hsub => ?_, fun sub _ hsub => ?_⟩
    · have heq : Output.submitted t' sub' = .submitted t sub := by simpa using hout.symm.trans hsub
      cases heq
      exact ⟨hspeed, hbus⟩
    · cases hnone.symm.trans hsub
    · obtain rfl := Option.some.inj (hbus.symm.trans hsub)
      exact ⟨hspeed, t', hout⟩

/-! While `stop` is set (43_sequencer R146). -/

theorem Effect.stopped {s s' : State} (h : Effect s s') (hstop : s.stop = true) :
    s'.stop = true ∧ s.q <+: s'.q ∧ (s'.cur = s.cur ∨ s'.cur = none) := by
  cases h with
  | ports h => exact ⟨h.stop hstop, h.q ▸ List.prefix_rfl, .inl h.cur⟩
  | enters => exact ⟨hstop, List.prefix_append .., .inl rfl⟩
  | stops => exact ⟨hstop, List.prefix_rfl, .inl rfl⟩
  | waits _ hgo => cases hgo.symm.trans hstop
  | dispatches _ hgo => cases hgo.symm.trans hstop
  | submits => exact ⟨hstop, List.prefix_rfl, .inl rfl⟩
  | discards => exact ⟨hstop, List.prefix_rfl, .inl rfl⟩
  | @answers _ _ a => cases a <;> exact ⟨hstop, List.prefix_rfl, .inr rfl⟩
  | expires => exact ⟨hstop, List.prefix_rfl, .inr rfl⟩

/-- Settles O40: a dispatch needs `stop` to be 0. -/
theorem noDispatchWhileStopped : Obligations.NoDispatchWhileStopped := by
  intro s s' hstop hnoStart h
  rcases step_acts h with ⟨⟨opens, rest, hsched⟩, _⟩ | ⟨es, held, r, es', heffect, rfl⟩
  · exact absurd hsched (hnoStart opens rest)
  · exact heffect.stopped hstop

/-! No step of the block stops it (60_exceptions R172). -/

theorem exec_next (i : Instr) (s : State) : ∃ s', exec i s = .next s' := by
  rcases exec_total i s with ⟨k, h⟩ | h | ⟨_, h⟩
  · exact ⟨_, h⟩
  · exact ⟨_, h⟩
  · exact ⟨_, h⟩

theorem resumeStep_next (k : Nat) (s : State) : ∃ s', resumeStep k s = .next s' := by
  cases hi : s.blocked[k]? with
  | none => exact ⟨s, resumeStep_of_none hi⟩
  | some i =>
    cases hfull : s.queueFull with
    | true => exact ⟨s, resumeStep_of_full k hfull⟩
    | false =>
      obtain ⟨s', h⟩ := exec_next i { s with blocked := s.blocked.eraseIdx k }
      exact ⟨s', (resumeStep_of_room hi hfull).trans h⟩

theorem Inv.sequencerStep_next {s : State} (hinv : Inv s) : ∃ s', sequencerStep s = .next s' := by
  cases hseq : s.seq with
  | stopped => exact ⟨s, by simp only [sequencerStep, hseq]⟩
  | inFlight => exact ⟨s, by simp only [sequencerStep, hseq]⟩
  | idle =>
    cases hstop : s.stop with
    | true => exact ⟨_, sequencerStep_of_stop hseq hstop⟩
    | false =>
      cases hq : s.q with
      | nil => exact ⟨s, sequencerStep_of_empty hseq hstop hq⟩
      | cons t rest =>
        obtain ⟨m, hm, _⟩ := hinv.queue.queued t (hq ▸ List.mem_cons_self)
        cases hbusy : s.busBusy with
        | true => exact ⟨_, sequencerStep_of_dispatch_busy hseq hstop hq hm hbusy⟩
        | false => exact ⟨_, sequencerStep_of_dispatch_free hseq hstop hq hm hbusy⟩
  | waitBus =>
    obtain ⟨t, ht⟩ := Option.isSome_iff_exists.mp (hinv.queue.curServing.mpr (.inl hseq))
    obtain ⟨m, hm, _⟩ := hinv.queue.current t ht
    cases hbusy : s.busBusy with
    | true => exact ⟨s, sequencerStep_of_waitBus_busy hseq hbusy⟩
    | false => exact ⟨_, sequencerStep_of_waitBus_free hseq ht hm hbusy⟩

theorem Inv.expireStep_next {s : State} (hinv : Inv s) : ∃ s', expireStep s = .next s' := by
  cases ht : s.cur with
  | none => exact ⟨s, by simp only [expireStep, ht]⟩
  | some t =>
    have hserving : serving s := hinv.queue.curServing.mp (ht ▸ rfl)
    obtain ⟨m, hm, _⟩ := hinv.queue.current t ht
    by_cases hdue : deadlineReached s m = true
    · exact ⟨_, expireStep_of_reached hserving ht hm hdue⟩
    · exact ⟨s, expireStep_of_early hserving ht hm hdue⟩

theorem Inv.busStep_next {s : State} (hinv : Inv s) (a : BusAnswer) : ∃ s', busStep a s = .next s' := by
  by_cases hfits : s.busBusy = true ∧ answerFits s a = true
  · obtain ⟨hbusy, hfits⟩ := hfits
    cases horphan : s.orphan with
    | some t => exact ⟨_, busStep_of_orphan hbusy hfits horphan⟩
    | none =>
      have hseq : s.seq = .inFlight := by
        simpa [horphan] using hinv.bus.owned.mp hbusy
      obtain ⟨t, ht⟩ := Option.isSome_iff_exists.mp (hinv.queue.curServing.mpr (.inr hseq))
      obtain ⟨m, hm, _⟩ := hinv.queue.current t ht
      cases hdue : s.cfg.timed && deadlineReached s m with
      | false => exact ⟨_, busStep_of_inFlight hbusy hfits horphan hseq ht hm hdue⟩
      | true =>
        obtain ⟨htimed, hdue⟩ := Bool.and_eq_true_iff.mp hdue
        exact ⟨_, busStep_of_late hbusy hfits horphan hseq ht hm htimed hdue⟩
  · refine ⟨s, if_neg ?_⟩
    rwa [Bool.and_eq_true]

theorem Inv.eventStep_next {s : State} (hinv : Inv s) {e : Event} (he : isBlockEvent e = true) :
    ∃ s', eventStep e s = .next s' := by
  cases e with
  | present p =>
    cases p with
    | term i => exact exec_next i s
    | frame bytes => cases he
  | resume k => exact resumeStep_next k s
  | sequencer => exact hinv.sequencerStep_next
  | bus a => exact hinv.busStep_next a
  | expire => exact hinv.expireStep_next
  | tick micros =>
    show ∃ s', tickStep micros s = .next s'
    unfold tickStep
    split <;> exact ⟨_, rfl⟩
  | setSpeed hz =>
    show ∃ s', setSpeedStep hz s = .next s'
    unfold setSpeedStep
    split <;> exact ⟨_, rfl⟩
  | start opens =>
    show ∃ s', startStep opens s = .next s'
    unfold startStep
    split_ifs <;> exact ⟨_, rfl⟩
  | shutdown | readStatus | writeStatus value => exact ⟨_, rfl⟩
  | readState t | readRx t | readResult t => cases he

/-- Settles O56: the invariant gives every tag the block looks up a record. -/
theorem blockNeverStops : Obligations.BlockNeverStops := by
  intro s hinv hevents
  cases hsched : s.sched with
  | nil =>
    cases henabled : sequencerEnabled s with
    | true =>
      obtain ⟨s', h⟩ := hinv.sequencerStep_next
      exact ⟨s', by simp only [step, agentStep, hsched, quietStep, henabled, if_true, h]⟩
    | false =>
      obtain ⟨s', h⟩ := resumeStep_next 0 s
      exact ⟨s', (step_of_quiet hsched henabled).trans h⟩
  | cons e rest =>
    obtain ⟨s', h⟩ := (hinv.with_sched_blocked rest s.blocked).eventStep_next (hevents e rest hsched)
    exact ⟨s', (step_of_sched hsched).trans h⟩

end Sys2Proof.Safety
end

section
/-! PROOFS. The timed refinement is a refinement (43_sequencer R138): whatever a step of it does to the block and its ports, some event
does in the untimed model, where the clock does not move, a deadline is a marker and an expiry may come at any time. -/

namespace Sys2Proof.Safety

open Sys2Proof.Machine

/-! The store but for the numbers of the deadlines. -/

/-- The store as the untimed model sees it. -/
def eraseStore (ms : Memory) : Memory := ms.map fun e => (e.1, eraseDeadline e.2)

theorem eraseStore_memPut (ms : Memory) (t : Nat) (m : Message) :
    eraseStore (memPut ms t m) = memPut (eraseStore ms) t (eraseDeadline m) := by
  induction ms with
  | nil => rfl
  | cons e rest ih =>
    obtain ⟨k, r⟩ := e
    simp only [eraseStore, List.map_cons, memPut] at ih ⊢
    split_ifs
    · rfl
    · rfl
    · rw [List.map_cons, ih]

theorem memGet_eraseStore (ms : Memory) (t : Nat) :
    memGet (eraseStore ms) t = (memGet ms t).map eraseDeadline := by
  induction ms with
  | nil => rfl
  | cons e rest ih =>
    obtain ⟨k, r⟩ := e
    simp only [eraseStore, List.map_cons, memGet] at ih ⊢
    split_ifs
    · rfl
    · exact ih

/-- Stores that differ in deadlines alone still do so after records that differ in deadlines alone are written. -/
theorem eraseStore_memPut_congr {ms ms' : Memory} (hms : eraseStore ms' = eraseStore ms) {m m' : Message}
    (hm : eraseDeadline m' = eraseDeadline m) (t : Nat) : eraseStore (memPut ms' t m') = eraseStore (memPut ms t m) := by
  rw [eraseStore_memPut, eraseStore_memPut, hms, hm]

/-- A record found in one store is in the other but for the number of its deadline. -/
theorem memGet_of_eraseStore_eq {ms ms' : Memory} (h : eraseStore ms' = eraseStore ms) {t : Nat} {m : Message}
    (hm : memGet ms t = some m) :
    ∃ d, memGet ms' t = some { m with deadline := d } ∧
      d.map (fun _ => 0) = m.deadline.map (fun _ => 0) := by
  have herase : (memGet ms' t).map eraseDeadline = some (eraseDeadline m) := by
    rw [← memGet_eraseStore, h, memGet_eraseStore, hm]
    rfl
  obtain ⟨m', hm', heq⟩ := Option.map_eq_some_iff.mp herase
  have hsame : m' = { m with deadline := m'.deadline } := by
    cases m
    cases m'
    simp only [eraseDeadline, Message.mk.injEq] at heq ⊢
    simp [heq]
  exact ⟨m'.deadline, hsame ▸ hm', congrArg Message.deadline heq⟩

/-! States that differ in time alone. -/

/-- `s` in the untimed model, with these records, clock values and schedule. -/
def retimed (s : State) (ms : Memory) (now stopAt : Nat) (es : List Event) : State :=
  { s with cfg := { s.cfg with timed := false }, msgs := ms, now := now, stopAt := stopAt, sched := es }

/-- `u` is `s` in the untimed model, but for what only the timed refinement looks at. -/
def Untimes (s u : State) : Prop :=
  ∃ ms now stopAt es, eraseStore ms = eraseStore s.msgs ∧ u = retimed s ms now stopAt es

theorem untimes_untimed (s : State) (es : List Event) : Untimes s { untimed s with sched := es } :=
  ⟨s.msgs, s.now, s.stopAt, es, rfl, rfl⟩

theorem Untimes.with_sched {s u : State} (h : Untimes s u) (es : List Event) : Untimes s { u with sched := es } := by
  obtain ⟨ms, now, stopAt, _, hms, rfl⟩ := h
  exact ⟨ms, now, stopAt, es, hms, rfl⟩

theorem Untimes.eraseTime_eq {s u : State} (h : Untimes s u) : eraseTime u = eraseTime s := by
  obtain ⟨ms, now, stopAt, es, hms, rfl⟩ := h
  simp only [eraseTime, retimed]
  congr 1

/-- In the untimed model the event `e` does what leads from `s` to `s'`. -/
def Mirrors (e : Event) (s s' : State) : Prop :=
  ∀ u, Untimes s u → ∃ u', eventStep e u = .next u' ∧ Untimes s' u' ∧ u'.sched = u.sched

/-- No event does what changes time alone; a tick does that in the untimed model. -/
theorem mirrors_of_same {s s' : State} (h : ∀ u, Untimes s u → Untimes s' u) : Mirrors (.tick 0) s s' := by
  rintro u hu
  have huntimed : u.cfg.timed = false := by
    obtain ⟨_, _, _, _, _, rfl⟩ := hu
    rfl
  exact ⟨u, tickStep_of_untimed 0 huntimed, h u hu, rfl⟩

theorem mirrors_refl (s : State) : Mirrors (.tick 0) s s := mirrors_of_same fun _ => id

/-- A step that reads and writes no record does the same with any clock. -/
theorem mirrors_of_retimed {e : Event} {s s' : State} (hmsgs : s'.msgs = s.msgs)
    (h : ∀ ms now stopAt es, ∃ now' stopAt',
      eventStep e (retimed s ms now stopAt es) = .next (retimed s' ms now' stopAt' es)) : Mirrors e s s' := by
  rintro _ ⟨ms, now, stopAt, es, hms, rfl⟩
  obtain ⟨now', stopAt', hstep⟩ := h ms now stopAt es
  exact ⟨_, hstep, ⟨ms, now', stopAt', es, hms.trans (hmsgs ▸ rfl), rfl⟩, rfl⟩

/-! Producers. -/

theorem check_untimed (cfg : Config) (op : FunctionCode) (c : Construction) :
    check { cfg with timed := false } op c = check cfg op c := rfl

theorem encode_untimed (cfg : Config) (i : Instr) : encode { cfg with timed := false } i = encode cfg i := by
  cases i with
  | readBit c | readRegister c | writeBit c | writeRegister c | writeBits c | writeCharacter c | writeString c
  | readString c | idle c => cases c <;> rfl
  | invalid c => rfl

theorem acceptedRecord_untimed (cfg : Config) (i : Instr) :
    acceptedRecord { cfg with timed := false } i = acceptedRecord cfg i := by
  simp only [acceptedRecord, encode_untimed]
  rfl

theorem decodeWhole_untimed (cfg : Config) (bytes : List Byte) :
    decodeWhole { cfg with timed := false } bytes = decodeWhole cfg bytes := rfl

theorem fetch_untimed (cfg : Config) (p : Presented) : fetch { cfg with timed := false } p = fetch cfg p := by
  cases p with
  | term i => rfl
  | frame bytes => exact decodeWhole_untimed cfg bytes

/-- A request does in the untimed model what it does in the timed refinement. -/
theorem exec_untimes {i : Instr} {s s' : State} (h : exec i s = .next s') {u : State} (hu : Untimes s u) :
    ∃ u', exec i u = .next u' ∧ Untimes s' u' ∧ u'.sched = u.sched := by
  obtain ⟨ms, now, stopAt, es, hms, rfl⟩ := hu
  cases hcheck : check s.cfg i.op i.construction with
  | some k =>
    obtain rfl := outcome_next_inj.mp ((exec_of_rejected hcheck).symm.trans h)
    exact ⟨_, exec_of_rejected (s := retimed s ms now stopAt es) hcheck, ⟨ms, now, stopAt, es, hms, rfl⟩, rfl⟩
  | none =>
    cases hfull : s.queueFull with
    | true =>
      obtain rfl := outcome_next_inj.mp ((exec_of_full hcheck hfull).symm.trans h)
      exact ⟨_, exec_of_full (s := retimed s ms now stopAt es) hcheck hfull, ⟨ms, now, stopAt, es, hms, rfl⟩, rfl⟩
    | false =>
      obtain rfl := outcome_next_inj.mp ((exec_of_room hcheck hfull).symm.trans h)
      refine ⟨_, exec_of_room (s := retimed s ms now stopAt es) hcheck hfull, ?_, rfl⟩
      rw [show (retimed s ms now stopAt es).cfg = { s.cfg with timed := false } from rfl, acceptedRecord_untimed]
      refine ⟨memPut ms s.nextTag (acceptedRecord s.cfg i), now, stopAt, es, ?_, rfl⟩
      exact eraseStore_memPut_congr hms rfl s.nextTag

theorem presentStep_mirrors {p : Presented} {s s' : State} (h : presentStep p s = .next s') :
    Mirrors (.present p) s s' := by
  obtain ⟨i, hi, hexec⟩ := presentStep_cases h
  rintro u hu
  obtain ⟨u', hstep, hrest⟩ := exec_untimes hexec hu
  have hfetch : fetch u.cfg p = .ok i := by
    obtain ⟨ms, now, stopAt, es, _, rfl⟩ := hu
    exact (fetch_untimed s.cfg p).trans hi
  exact ⟨u', (presentStep_of_fetch hfetch).trans hstep, hrest⟩

theorem resumeStep_mirrors {k : Nat} {s s' : State} (h : resumeStep k s = .next s') : ∃ e, Mirrors e s s' := by
  rcases resumeStep_cases h with rfl | ⟨i, hi, hroom, hexec⟩
  · exact ⟨_, mirrors_refl _⟩
  · refine ⟨.resume k, ?_⟩
    rintro _ ⟨ms, now, stopAt, es, hms, rfl⟩
    obtain ⟨u', hstep, hrest⟩ := exec_untimes hexec ⟨ms, now, stopAt, es, hms, rfl⟩
    exact ⟨u', (resumeStep_of_room (s := retimed s ms now stopAt es) hi hroom).trans hstep, hrest⟩

/-! Sequencer, bus and timer. -/

theorem sequencerStep_mirrors {s s' : State} (h : sequencerStep s = .next s') : ∃ e, Mirrors e s s' := by
  rcases sequencerStep_cases h with rfl | ⟨hseq, hstop, rfl⟩ |
    ⟨hseq, hstop, t, rest, m, hq, hm, ⟨hbusy, rfl⟩ | ⟨hfree, rfl⟩⟩ | ⟨hseq, hfree, t, m, hcur, hm, rfl⟩
  · exact ⟨_, mirrors_refl _⟩
  · exact ⟨.sequencer, mirrors_of_retimed rfl fun ms now stopAt es => ⟨now, stopAt, sequencerStep_of_stop hseq hstop⟩⟩
  all_goals
    refine ⟨.sequencer, ?_⟩
    rintro _ ⟨ms, now, stopAt, es, hms, rfl⟩
    obtain ⟨d, hd, hmark⟩ := memGet_of_eraseStore_eq hms hm
  · refine ⟨_, sequencerStep_of_dispatch_busy (s := retimed s ms now stopAt es) hseq hstop hq hd hbusy,
      ⟨_, now, stopAt, es, ?_, rfl⟩, rfl⟩
    exact eraseStore_memPut_congr hms (by rfl) t
  · refine ⟨_, sequencerStep_of_dispatch_free (s := retimed s ms now stopAt es) hseq hstop hq hd hfree,
      ⟨_, now, stopAt, es, ?_, rfl⟩, rfl⟩
    exact eraseStore_memPut_congr hms (by rfl) t
  · exact ⟨_, sequencerStep_of_waitBus_free (s := retimed s ms now stopAt es) hseq hcur hd hfree,
      ⟨ms, now, stopAt, es, hms, rfl⟩, rfl⟩

/-- An expiry is possible at any time in the untimed model. -/
theorem expireMessage_mirrors {s : State} {t : Nat} {m : Message} (hserving : serving s) (hcur : s.cur = some t)
    (hm : memGet s.msgs t = some m) : Mirrors .expire s (expireMessage t m s) := by
  rintro _ ⟨ms, now, stopAt, es, hms, rfl⟩
  obtain ⟨d, hd, hmark⟩ := memGet_of_eraseStore_eq hms hm
  have hdue : deadlineReached (retimed s ms now stopAt es) { m with deadline := d } = true :=
    deadlineReached_iff.mpr (.inl rfl)
  refine ⟨_, expireStep_of_reached (s := retimed s ms now stopAt es) hserving hcur hd hdue,
    ⟨_, now, stopAt, es, ?_, rfl⟩, rfl⟩
  exact eraseStore_memPut_congr hms (by simp only [eraseDeadline, hmark]) t

theorem expireStep_mirrors {s s' : State} (h : expireStep s = .next s') : ∃ e, Mirrors e s s' := by
  rcases expireStep_cases h with rfl | ⟨t, m, hcur, hserving, hm, _, rfl⟩
  · exact ⟨_, mirrors_refl _⟩
  · exact ⟨.expire, expireMessage_mirrors hserving hcur hm⟩

theorem answerCurrent_mirrors {s : State} {t : Nat} {m : Message} {a : BusAnswer} (hbusy : s.busBusy = true)
    (hfits : answerFits s a = true) (horphan : s.orphan = none) (hseq : s.seq = .inFlight) (hcur : s.cur = some t)
    (hm : memGet s.msgs t = some m) : Mirrors (.bus a) s (answerCurrent t m a s) := by
  rintro _ ⟨ms, now, stopAt, es, hms, rfl⟩
  obtain ⟨d, hd, hmark⟩ := memGet_of_eraseStore_eq hms hm
  refine ⟨_, busStep_of_inFlight (s := retimed s ms now stopAt es) hbusy hfits horphan hseq hcur hd rfl, ?_⟩
  cases a with
  | fail =>
    refine ⟨⟨_, now, stopAt, es, ?_, rfl⟩, rfl⟩
    exact eraseStore_memPut_congr hms (by simp only [eraseDeadline, hmark]) t
  | ok bytes =>
    refine ⟨⟨_, now, stopAt, es, ?_, rfl⟩, rfl⟩
    exact eraseStore_memPut_congr hms (by simp only [eraseDeadline, received, hmark]; rfl) t

/-- A late answer is the expiry that goes first; the answer stays in the schedule, which the untimed model has its own of. -/
theorem busStep_mirrors {a : BusAnswer} {s s' : State} (h : busStep a s = .next s') : ∃ e, Mirrors e s s' := by
  rcases busStep_cases h with rfl | ⟨hbusy, hfits, ⟨t, horphan⟩, rfl⟩ |
    ⟨hbusy, hfits, horphan, hseq, t, m, hcur, hm, ⟨_, _, rfl⟩ | ⟨_, rfl⟩⟩
  · exact ⟨_, mirrors_refl _⟩
  · exact ⟨.bus a, mirrors_of_retimed rfl fun ms now stopAt es =>
      ⟨now, stopAt, busStep_of_orphan (s := retimed s ms now stopAt es) hbusy hfits horphan⟩⟩
  · refine ⟨.expire, fun u hu => ?_⟩
    obtain ⟨u', hstep, ⟨ms, now, stopAt, es, hms, rfl⟩, hsched⟩ := expireMessage_mirrors (.inr hseq) hcur hm u hu
    exact ⟨_, hstep, ⟨ms, now, stopAt, es, hms, rfl⟩, hsched⟩
  · exact ⟨.bus a, answerCurrent_mirrors hbusy hfits horphan hseq hcur hm⟩

/-! The clock and the host. -/

theorem tickStep_mirrors {micros : Nat} {s s' : State} (h : tickStep micros s = .next s') : Mirrors (.tick 0) s s' := by
  rcases tickStep_cases h with rfl | ⟨_, _, rfl⟩
  · exact mirrors_refl _
  · exact mirrors_of_same fun _ hu => hu

theorem setSpeedStep_mirrors {hz : Nat} {s s' : State} (h : setSpeedStep hz s = .next s') :
    Mirrors (.setSpeed hz) s s' := by
  rcases Nat.eq_zero_or_pos hz with rfl | hpos
  · obtain rfl := outcome_next_inj.mp ((setSpeedStep_zero s).symm.trans h)
    exact mirrors_of_retimed rfl fun ms now stopAt es => ⟨now, stopAt, setSpeedStep_zero _⟩
  · obtain rfl := outcome_next_inj.mp ((setSpeedStep_of_pos hpos s).symm.trans h)
    exact mirrors_of_retimed rfl fun ms now stopAt es => ⟨now, stopAt, setSpeedStep_of_pos hpos _⟩

theorem shutdownStep_mirrors {s s' : State} (h : shutdownStep s = .next s') : Mirrors .shutdown s s' := by
  obtain rfl := outcome_next_inj.mp h
  exact mirrors_of_retimed rfl fun ms now stopAt es => ⟨now, _, rfl⟩

theorem startStep_mirrors {opens : Bool} {s s' : State} (h : startStep opens s = .next s') :
    Mirrors (.start opens) s s' := by
  by_cases hseq : s.seq = .stopped
  · cases opens with
    | true =>
      obtain rfl := outcome_next_inj.mp ((startStep_of_open hseq).symm.trans h)
      exact mirrors_of_retimed rfl fun ms now stopAt es =>
        ⟨now, stopAt, startStep_of_open (s := retimed s ms now stopAt es) hseq⟩
    | false =>
      obtain rfl := outcome_next_inj.mp ((startStep_of_closed hseq).symm.trans h)
      exact mirrors_of_retimed rfl fun ms now stopAt es =>
        ⟨now, stopAt, startStep_of_closed (s := retimed s ms now stopAt es) hseq⟩
  · obtain rfl := outcome_next_inj.mp ((startStep_of_running opens hseq).symm.trans h)
    exact mirrors_of_retimed rfl fun ms now stopAt es =>
      ⟨now, stopAt, startStep_of_running (s := retimed s ms now stopAt es) opens hseq⟩

theorem readStatusStep_mirrors {s s' : State} (h : readStatusStep s = .next s') : Mirrors .readStatus s s' := by
  obtain rfl := outcome_next_inj.mp h
  exact mirrors_of_retimed rfl fun ms now stopAt es => ⟨now, stopAt, rfl⟩

theorem readStateStep_mirrors {t : Nat} {s s' : State} (h : readStateStep t s = .next s') :
    Mirrors (.readState t) s s' := by
  obtain ⟨m, hm, rfl⟩ := readStateStep_cases h
  rintro _ ⟨ms, now, stopAt, es, hms, rfl⟩
  obtain ⟨d, hd, _⟩ := memGet_of_eraseStore_eq hms hm
  exact ⟨_, readStateStep_of_some (s := retimed s ms now stopAt es) hd, ⟨ms, now, stopAt, es, hms, rfl⟩, rfl⟩

theorem readRxStep_mirrors {t : Nat} {s s' : State} (h : readRxStep t s = .next s') : Mirrors (.readRx t) s s' := by
  obtain ⟨m, bytes, hm, hended, hrx, rfl⟩ := readRxStep_cases h
  rintro _ ⟨ms, now, stopAt, es, hms, rfl⟩
  obtain ⟨d, hd, _⟩ := memGet_of_eraseStore_eq hms hm
  exact ⟨_, readRxStep_of_value (s := retimed s ms now stopAt es) hd hended hrx, ⟨ms, now, stopAt, es, hms, rfl⟩, rfl⟩

theorem readResultStep_mirrors {t : Nat} {s s' : State} (h : readResultStep t s = .next s') :
    Mirrors (.readResult t) s s' := by
  obtain ⟨m, hm, hended, rfl⟩ := readResultStep_cases h
  rintro _ ⟨ms, now, stopAt, es, hms, rfl⟩
  obtain ⟨d, hd, _⟩ := memGet_of_eraseStore_eq hms hm
  exact ⟨_, readResultStep_of_ended (s := retimed s ms now stopAt es) hd hended, ⟨ms, now, stopAt, es, hms, rfl⟩, rfl⟩

theorem eventStep_mirrors {e : Event} {s s' : State} (h : eventStep e s = .next s') : ∃ e', Mirrors e' s s' := by
  cases e with
  | present p => exact ⟨_, presentStep_mirrors h⟩
  | resume k => exact resumeStep_mirrors h
  | sequencer => exact sequencerStep_mirrors h
  | bus a => exact busStep_mirrors h
  | expire => exact expireStep_mirrors h
  | tick micros => exact ⟨_, tickStep_mirrors h⟩
  | setSpeed hz => exact ⟨_, setSpeedStep_mirrors h⟩
  | shutdown => exact ⟨_, shutdownStep_mirrors h⟩
  | start opens => exact ⟨_, startStep_mirrors h⟩
  | readStatus => exact ⟨_, readStatusStep_mirrors h⟩
  | writeStatus value =>
    obtain rfl := outcome_next_inj.mp h
    exact ⟨_, mirrors_refl _⟩
  | readState t => exact ⟨_, readStateStep_mirrors h⟩
  | readRx t => exact ⟨_, readRxStep_mirrors h⟩
  | readResult t => exact ⟨_, readResultStep_mirrors h⟩

/-- Every step is some event's in the untimed model. -/
theorem step_mirrors {s s' : State} (h : step s = .next s') : ∃ e, Mirrors e s s' := by
  rcases step_cases h with ⟨e, rest, _, he⟩ | ⟨_, hseq | hres⟩
  · have hmirror := eventStep_mirrors he
    exact hmirror
  · exact sequencerStep_mirrors hseq
  · exact resumeStep_mirrors hres

/-- So is every run of so many steps, under the schedule of those events. -/
theorem run_mirrors {n : Nat} {s s' : State} (h : Host.Core.run core n s = .next s') :
    ∃ events : List Event, events.length = n ∧ ∀ u, Untimes s u → u.sched = events →
      ∃ u', Host.Core.run core n u = .next u' ∧ Untimes s' u' := by
  induction n generalizing s with
  | zero =>
    obtain rfl := outcome_next_inj.mp h
    exact ⟨[], rfl, fun u hu _ => ⟨u, rfl, hu⟩⟩
  | succ n ih =>
    obtain ⟨r, hr, hrest⟩ := run_succ_cases h
    obtain ⟨e, he⟩ := step_mirrors hr
    obtain ⟨events, hlen, hrun⟩ := ih hrest
    refine ⟨e :: events, congrArg (· + 1) hlen, fun u hu hsched => ?_⟩
    obtain ⟨v, hv, huntimes, hvsched⟩ := he { u with sched := events } (hu.with_sched events)
    obtain ⟨u', hu', hsee⟩ := hrun v huntimes hvsched
    exact ⟨u', (run_succ ((step_of_sched hsched).trans hv) n).trans hu', hsee⟩

/-- Settles O35, from the run's mirror in the untimed model. -/
theorem timedRunIsUntimedRun : Obligations.TimedRunIsUntimedRun := by
  intro n s s' _ h
  obtain ⟨events, hlen, hrun⟩ := run_mirrors h
  obtain ⟨u, hu, huntimes⟩ := hrun _ (untimes_untimed s events) rfl
  exact ⟨events, u, hlen, hu, huntimes.eraseTime_eq⟩

end Sys2Proof.Safety
end

section
/-! PROOFS. Progress (43_sequencer R149, R150; 70_reset R195): what a step does to the message served and to the head of the queue, that
a served message ends under a fair timer, that the head of the queue is served under a fair sequencer, and a queue that drains by
timeouts alone. -/

namespace Sys2Proof.Safety

open Sys2Proof.Machine

/-! What one step does to the served message, the clock and the queue. -/

theorem Inv.current_step {s s' : State} (hinv : Inv s) (h : step s = .next s') {t : Nat} {m : Message}
    (hcur : s.cur = some t) (hm : memGet s.msgs t = some m) :
    (s'.cur = some t ∧ memGet s'.msgs t = some m) ∨
      (s'.cur = none ∧ ∃ c, stateOf s' t = some c ∧ c ≠ .pending) := by
  cases step_storeEffect h with
  | same hmsgs hcur' => exact .inl ⟨hcur'.trans hcur, hmsgs ▸ hm⟩
  | added _ hmsgs hcur' =>
    have hne : t ≠ s.nextTag := (hinv.store.below t m hm).ne
    exact .inl ⟨hcur'.trans hcur, by rw [hmsgs, memGet_put_other _ _ hne, hm]⟩
  | served hidle => cases (hinv.cur_eq_none_of_idle hidle).symm.trans hcur
  | @ended u _ m' hu _ _ hended hends =>
    obtain rfl := Option.some.inj (hcur.symm.trans hu)
    exact .inr ⟨hends.cur, m'.state, by simp [stateOf, hends.msgs], hended⟩

theorem step_now_le {s s' : State} (h : step s = .next s') : s.now ≤ s'.now := by
  rcases step_acts h with ⟨_, _, es, rfl⟩ | ⟨es, held, r, es', heffect, rfl⟩
  · exact le_rfl
  · show { s with sched := es, blocked := held }.now ≤ r.now
    cases heffect with
    | ports h => exact h.now
    | @answers _ _ a => cases a <;> exact le_rfl
    | _ => exact le_rfl

/-- The queue grows at its tail, or loses its head, which becomes current. -/
theorem step_queue {s s' : State} (h : step s = .next s') :
    s.q <+: s'.q ∨ ∃ t, s.q = t :: s'.q ∧ s'.cur = some t := by
  rcases step_acts h with ⟨_, _, es, rfl⟩ | ⟨es, held, r, es', heffect, rfl⟩
  · exact .inl List.prefix_rfl
  · show s.q <+: r.q ∨ ∃ t, s.q = t :: r.q ∧ r.cur = some t
    cases heffect with
    | ports h => exact .inl (h.q ▸ List.prefix_rfl)
    | enters => exact .inl (List.prefix_append ..)
    | waits _ _ hq => exact .inr ⟨_, hq, rfl⟩
    | dispatches _ _ hq => exact .inr ⟨_, hq, rfl⟩
    | @answers _ _ a => cases a <;> exact .inl List.prefix_rfl
    | _ => exact .inl List.prefix_rfl

/-- While `stop` is 0 a block that has been started stays so (43_sequencer R135, R146). -/
theorem step_not_stopped {s s' : State} (h : step s = .next s') (hstop : s.stop = false) (hseq : s.seq ≠ .stopped) :
    s'.seq ≠ .stopped := by
  have hend : afterCompletion s.stop ≠ .stopped := by simp [afterCompletion, hstop]
  rcases step_acts h with ⟨_, hold, _⟩ | ⟨es, held, r, es', heffect, rfl⟩
  · exact absurd hold hseq
  · show r.seq ≠ .stopped
    cases heffect with
    | ports h => exact h.seq ▸ hseq
    | enters => exact hseq
    | stops _ hset => cases hset.symm.trans hstop
    | waits => simp
    | dispatches => simp
    | submits => simp
    | discards => exact hseq
    | @answers _ _ a => cases a <;> exact hend
    | expires => exact hend

/-- While `stop` is 0 the idle sequencer stays idle until it serves the head of the queue. -/
theorem Inv.idle_step {s s' : State} (hinv : Inv s) (h : step s = .next s') (hstop : s.stop = false)
    (hseq : s.seq = .idle) : s'.seq = .idle ∨ ∃ t rest, s.q = t :: rest ∧ s'.cur = some t := by
  have hnone : ∀ {t}, s.cur ≠ some t := by simp [hinv.cur_eq_none_of_idle hseq]
  rcases step_acts h with ⟨_, hold, _⟩ | ⟨es, held, r, es', heffect, rfl⟩
  · cases hold.symm.trans hseq
  · show r.seq = .idle ∨ ∃ t rest, s.q = t :: rest ∧ r.cur = some t
    cases heffect with
    | ports h => exact .inl (h.seq.trans hseq)
    | enters => exact .inl hseq
    | stops _ hset => cases hset.symm.trans hstop
    | waits _ _ hq => exact .inr ⟨_, _, hq, rfl⟩
    | dispatches _ _ hq => exact .inr ⟨_, _, hq, rfl⟩
    | submits _ hcur => exact absurd hcur hnone
    | discards => exact .inl hseq
    | answers _ hcur => exact absurd hcur hnone
    | expires _ hcur => exact absurd hcur hnone

/-! Endless runs. -/

section
variable {supply : Nat → Event} {run : Nat → State}

/-- Each state of an endless run leads to the next by a step, under some schedule. -/
theorem EndlessRun.step_next (hrun : EndlessRun supply run) (n : Nat) :
    ∃ es, step { run n with sched := es } = .next (run (n + 1)) := by
  obtain ⟨es, hes⟩ := feed_eq_sched (supply n) (run n)
  exact ⟨es, hes ▸ hrun n⟩

/-- A step that an event names is that event's. -/
theorem EndlessRun.taken_next (hrun : EndlessRun supply run) {e : Event} {n : Nat} (h : Taken supply run e n) :
    ∃ rest, eventStep e { run n with sched := rest } = .next (run (n + 1)) := by
  obtain ⟨rest, hsched⟩ := taken_sched h
  have hstep := (step_of_sched hsched).symm.trans (hrun n)
  obtain ⟨es, hes⟩ := feed_eq_sched (supply n) (run n)
  rw [hes] at hstep
  exact ⟨rest, hstep⟩

/-- What the premises of the second claim say of a run: `stop` stays 0, the block is started, timer and sequencer are fair. -/
structure Served (supply : Nat → Event) (run : Nat → State) : Prop where
  come : DeadlinesCome run
  timer : FairTimer supply run
  sequencer : FairSequencer supply run
  stop : ∀ n, (run n).stop = false
  started : ∃ n, (run n).seq ≠ SeqState.stopped

variable (hrun : EndlessRun supply run) (hinv : Inv (run 0))
include hrun

theorem EndlessRun.cfg_eq (n : Nat) : (run n).cfg = (run 0).cfg := by
  induction n with
  | zero => rfl
  | succ n ih =>
    obtain ⟨es, h⟩ := EndlessRun.step_next hrun n
    exact (step_cfg h).trans ih

theorem EndlessRun.now_le {n k : Nat} (h : n ≤ k) : (run n).now ≤ (run k).now := by
  refine monotone_nat_of_le_succ (f := fun n => (run n).now) (fun n => ?_) h
  obtain ⟨es, h⟩ := EndlessRun.step_next hrun n
  have hle := step_now_le h
  exact hle

/-- The deadline of a message that stays current comes, and stays passed (43_sequencer R138). -/
theorem EndlessRun.deadline_comes (hcome : DeadlinesCome run) (n : Nat) {m : Message} (harmed : m.deadline.isSome = true) :
    ∃ n', n ≤ n' ∧ ∀ k, n' ≤ k → deadlineReached (run k) m = true := by
  rcases hcome with huntimed | hclock
  · refine ⟨n, le_rfl, fun k _ => deadlineReached_iff.mpr (.inl ?_)⟩
    rw [EndlessRun.cfg_eq hrun k, huntimed]
  · obtain ⟨d, hd⟩ := Option.isSome_iff_exists.mp harmed
    obtain ⟨n₁, hn₁⟩ := hclock d
    refine ⟨max n n₁, le_max_left .., fun k hk => deadlineReached_iff.mpr (.inr ⟨d, hd, ?_⟩)⟩
    exact hn₁.trans (EndlessRun.now_le hrun ((le_max_right ..).trans hk))

/-- From some time on the block is never Stopped. -/
theorem EndlessRun.not_stopped (hserved : Served supply run) : ∃ n, ∀ k, n ≤ k → (run k).seq ≠ .stopped := by
  obtain ⟨n, hn⟩ := hserved.started
  refine ⟨n, fun k hk => ?_⟩
  induction k, hk using Nat.le_induction with
  | base => exact hn
  | succ k _ ih =>
    obtain ⟨es, h⟩ := EndlessRun.step_next hrun k
    exact step_not_stopped h (hserved.stop k) ih

include hinv

theorem EndlessRun.inv (n : Nat) : Inv (run n) := by
  induction n with
  | zero => exact hinv
  | succ n ih =>
    obtain ⟨es, h⟩ := EndlessRun.step_next hrun n
    exact everyStepKeepsInv _ _ (ih.with_sched_blocked es (run n).blocked) h

/-- Where a served message never ends, it stays current with its record as it is. -/
theorem EndlessRun.current_stays {n t : Nat} {m : Message} (hcur : (run n).cur = some t)
    (hm : memGet (run n).msgs t = some m)
    (hnever : ∀ k c, n ≤ k → stateOf (run k) t = some c → c = .pending) (k : Nat) (hk : n ≤ k) :
    (run k).cur = some t ∧ memGet (run k).msgs t = some m := by
  induction k, hk using Nat.le_induction with
  | base => exact ⟨hcur, hm⟩
  | succ k hk ih =>
    obtain ⟨hcur, hm⟩ := ih
    obtain ⟨es, h⟩ := EndlessRun.step_next hrun k
    have hinvk := (EndlessRun.inv hrun hinv k).with_sched_blocked es (run k).blocked
    rcases hinvk.current_step h hcur hm with hstays | ⟨_, c, hc, hended⟩
    · exact hstays
    · exact absurd (hnever (k + 1) c (by omega) hc) hended

/-- Under a fair timer whose deadlines come, the served message ends (43_sequencer R149). -/
theorem EndlessRun.current_ends (hcome : DeadlinesCome run) (hfair : FairTimer supply run) {n t : Nat}
    (hcur : (run n).cur = some t) : ∃ k c, n ≤ k ∧ stateOf (run k) t = some c ∧ c ≠ .pending := by
  by_contra hno
  have hnever : ∀ k c, n ≤ k → stateOf (run k) t = some c → c = .pending := fun k c hk hc => by
    by_contra hended
    exact hno ⟨k, c, hk, hc, hended⟩
  obtain ⟨m, hm, hdispatched⟩ := (EndlessRun.inv hrun hinv n).queue.current t hcur
  have hstays := EndlessRun.current_stays hrun hinv hcur hm hnever
  obtain ⟨n', hn', hdue⟩ := EndlessRun.deadline_comes hrun hcome n hdispatched.armed
  have hserving : ∀ k, n' ≤ k → serving (run k) := fun k hk =>
    (EndlessRun.inv hrun hinv k).queue.curServing.mp ((hstays k (hn'.trans hk)).1 ▸ rfl)
  obtain ⟨k, hk, htaken⟩ := hfair n' fun k hk =>
    expiryEnabled_iff.mpr ⟨t, m, (hstays k (hn'.trans hk)).1, hserving k hk, (hstays k (hn'.trans hk)).2, hdue k hk⟩
  obtain ⟨hcurk, hmk⟩ := hstays k (hn'.trans hk)
  obtain ⟨rest, hstep⟩ := EndlessRun.taken_next hrun htaken
  have hexpire := expireStep_of_reached (s := { run k with sched := rest }) (hserving k hk) hcurk hmk (hdue k hk)
  have hnext : run (k + 1) = expireMessage t m { run k with sched := rest } :=
    (outcome_next_inj.mp (hexpire.symm.trans hstep)).symm
  cases hnever (k + 1) .timedOut (by omega) (by simp [hnext, stateOf])

variable (hserved : Served supply run)
include hserved

/-- Again and again the sequencer is idle: the message it serves ends. -/
theorem EndlessRun.idle_again (n : Nat) : ∃ k, n ≤ k ∧ (run k).seq = .idle := by
  obtain ⟨n₀, hstarted⟩ := EndlessRun.not_stopped hrun hserved
  by_contra hno
  have hserving : ∀ k, max n n₀ ≤ k → serving (run k) := fun k hk => by
    have hnotStopped := hstarted k ((le_max_right ..).trans hk)
    have hnotIdle : (run k).seq ≠ .idle := fun h => hno ⟨k, (le_max_left ..).trans hk, h⟩
    cases hseq : (run k).seq with
    | stopped => exact absurd hseq hnotStopped
    | idle => exact absurd hseq hnotIdle
    | waitBus => exact .inl hseq
    | inFlight => exact .inr hseq
  obtain ⟨t, hcur⟩ := Option.isSome_iff_exists.mp
    ((EndlessRun.inv hrun hinv _).queue.curServing.mpr (hserving _ le_rfl))
  have hstays : ∀ k, max n n₀ ≤ k → (run k).cur = some t := fun k hk => by
    induction k, hk using Nat.le_induction with
    | base => exact hcur
    | succ k hk ih =>
      obtain ⟨es, h⟩ := EndlessRun.step_next hrun k
      have hinvk := EndlessRun.inv hrun hinv k
      obtain ⟨m, hm, _⟩ := hinvk.queue.current t ih
      rcases (hinvk.with_sched_blocked es (run k).blocked).current_step h ih hm with ⟨hcur', _⟩ | ⟨hnone, _⟩
      · exact hcur'
      · have := (EndlessRun.inv hrun hinv (k + 1)).queue.curServing.mpr (hserving (k + 1) (by omega))
        simp [hnone] at this
  obtain ⟨k, c, hk, hc, hended⟩ := EndlessRun.current_ends hrun hinv hserved.come hserved.timer hcur
  obtain ⟨m, hm, hdispatched⟩ := (EndlessRun.inv hrun hinv k).queue.current t (hstays k hk)
  simp only [stateOf, hm, Option.map_some, Option.some.injEq] at hc
  exact hended (hc ▸ hdispatched.pending)

/-- The head of the queue does not stay there: under a fair sequencer it is served. -/
theorem EndlessRun.head_leaves (n t : Nat) (hhead : ∀ k, n ≤ k → (run k).q.head? = some t)
    (hnotServed : ∀ k, n ≤ k → (run k).cur ≠ some t) : False := by
  obtain ⟨n', hn', hidle⟩ := EndlessRun.idle_again hrun hinv hserved n
  have hstays : ∀ k, n' ≤ k → (run k).seq = .idle := fun k hk => by
    induction k, hk using Nat.le_induction with
    | base => exact hidle
    | succ k hk ih =>
      obtain ⟨es, h⟩ := EndlessRun.step_next hrun k
      have hinvk := (EndlessRun.inv hrun hinv k).with_sched_blocked es (run k).blocked
      refine (hinvk.idle_step h (hserved.stop k) ih).resolve_right ?_
      rintro ⟨u, rest, hq, hcur⟩
      have hu : some u = some t := (congrArg List.head? hq).symm.trans (hhead k (hn'.trans hk))
      exact hnotServed (k + 1) (by omega) (hu ▸ hcur)
  have henabled : ∀ k, n' ≤ k → sequencerEnabled (run k) = true := fun k hk => by
    obtain ⟨rest, hq⟩ := List.head?_eq_some_iff.mp (hhead k (hn'.trans hk))
    simp [sequencerEnabled, hstays k hk, hq]
  obtain ⟨k, hk, htaken⟩ := hserved.sequencer n' henabled
  obtain ⟨es, hstep⟩ := EndlessRun.taken_next hrun htaken
  obtain ⟨rest, hq⟩ := List.head?_eq_some_iff.mp (hhead k (hn'.trans hk))
  obtain ⟨m, hm, _⟩ := (EndlessRun.inv hrun hinv k).queue.queued t (hq ▸ List.mem_cons_self)
  refine hnotServed (k + 1) (by omega) ?_
  cases hbusy : (run k).busBusy with
  | true =>
    have hdispatch := sequencerStep_of_dispatch_busy (s := { run k with sched := es }) (hstays k hk) (hserved.stop k)
      hq hm hbusy
    rw [← outcome_next_inj.mp (hdispatch.symm.trans hstep)]
    rfl
  | false =>
    have hdispatch := sequencerStep_of_dispatch_free (s := { run k with sched := es }) (hstays k hk) (hserved.stop k)
      hq hm hbusy
    rw [← outcome_next_inj.mp (hdispatch.symm.trans hstep)]
    rfl

/-- The head of the queue becomes current, and those behind it move up (43_sequencer R141). -/
theorem EndlessRun.head_served {n t : Nat} {rest : List Nat} (hq : (run n).q = t :: rest) :
    ∃ k, n ≤ k ∧ (run k).cur = some t ∧ rest <+: (run k).q := by
  by_contra hno
  have hstays : ∀ k, n ≤ k → t :: rest <+: (run k).q := fun k hk => by
    induction k, hk using Nat.le_induction with
    | base => exact hq ▸ List.prefix_rfl
    | succ k hk ih =>
      obtain ⟨es, h⟩ := EndlessRun.step_next hrun k
      rcases step_queue h with hgrows | ⟨u, hpop, hcur⟩
      · exact ih.trans hgrows
      · have hpop' : t :: rest <+: u :: (run (k + 1)).q := hpop ▸ ih
        obtain ⟨rfl, hbehind⟩ := List.cons_prefix_cons.mp hpop'
        exact absurd ⟨k + 1, by omega, hcur, hbehind⟩ hno
  refine EndlessRun.head_leaves hrun hinv hserved n t (fun k hk => ?_) (fun k hk hcur => ?_)
  · obtain ⟨added, hadded⟩ := hstays k hk
    rw [← hadded]
    rfl
  · obtain ⟨added, hadded⟩ := hstays k hk
    have htq : t ∈ (run k).q := hadded ▸ List.mem_cons_self
    exact absurd ((EndlessRun.inv hrun hinv k).queue.curFirst t t hcur htq) (lt_irrefl t)

/-- Every queued message becomes current: those before it are served first. -/
theorem EndlessRun.queued_served (before : List Nat) {n t : Nat} {after : List Nat}
    (hq : (run n).q = before ++ t :: after) : ∃ k, n ≤ k ∧ (run k).cur = some t := by
  induction before generalizing n after with
  | nil =>
    obtain ⟨k, hk, hcur, _⟩ := EndlessRun.head_served hrun hinv hserved hq
    exact ⟨k, hk, hcur⟩
  | cons u before ih =>
    obtain ⟨k, hk, _, added, hadded⟩ := EndlessRun.head_served hrun hinv hserved hq
    obtain ⟨k', hk', hcur⟩ := ih (n := k) (after := after ++ added) (hadded.symm.trans (List.append_assoc before (t :: after) added))
    exact ⟨k', hk.trans hk', hcur⟩

theorem EndlessRun.accepted_ends {n t : Nat} {m : Message} (hm : memGet (run n).msgs t = some m) :
    ∃ k c, n ≤ k ∧ stateOf (run k) t = some c ∧ c ≠ .pending := by
  by_cases hpending : m.state = .pending
  · obtain ⟨k, hk, hcur⟩ : ∃ k, n ≤ k ∧ (run k).cur = some t := by
      rcases (EndlessRun.inv hrun hinv n).queue.pendingOwned t m hm hpending with hq | hcur
      · obtain ⟨before, after, hsplit⟩ := List.append_of_mem hq
        exact EndlessRun.queued_served hrun hinv hserved before hsplit
      · exact ⟨n, le_rfl, hcur⟩
    obtain ⟨k', c, hk', hended⟩ := EndlessRun.current_ends hrun hinv hserved.come hserved.timer hcur
    exact ⟨k', c, hk.trans hk', hended⟩
  · exact ⟨n, m.state, le_rfl, by simp [stateOf, hm], hpending⟩

end

/-! A stuck bus (70_reset R195). -/

/-- One round without the bus: the sequencer's step serves the head, whether it submits or waits, and the expiry ends it. -/
theorem Inv.timeout_round {s : State} (hinv : Inv s) (huntimed : s.cfg.timed = false) (hstop : s.stop = false)
    (hseq : s.seq = .idle) {t : Nat} {rest : List Nat} (hq : s.q = t :: rest) {es : List Event}
    (hsched : s.sched = .sequencer :: .expire :: es) :
    ∃ p r, step s = .next p ∧ step p = .next r ∧ r.cfg.timed = false ∧ r.stop = false ∧ r.seq = .idle ∧ r.q = rest ∧
      r.sched = es ∧ r.log = s.log ++ [(t, .timedOut)] := by
  obtain ⟨m, hm, _⟩ := hinv.queue.queued t (hq ▸ List.mem_cons_self)
  obtain ⟨p, hp, hserving, hcur, hpm, hpcfg, hpstop, hpq, hpsched, hplog⟩ :
      ∃ p, step s = .next p ∧ serving p ∧ p.cur = some t ∧ memGet p.msgs t = some (armed s m) ∧ p.cfg = s.cfg ∧
        p.stop = s.stop ∧ p.q = rest ∧ p.sched = .expire :: es ∧ p.log = s.log := by
    cases hbusy : s.busBusy with
    | true =>
      refine ⟨_, (step_of_sched hsched).trans (sequencerStep_of_dispatch_busy hseq hstop hq hm hbusy), ?_⟩
      exact ⟨.inl rfl, rfl, memGet_put_same .., rfl, rfl, rfl, rfl, rfl⟩
    | false =>
      refine ⟨_, (step_of_sched hsched).trans (sequencerStep_of_dispatch_free hseq hstop hq hm hbusy), ?_⟩
      exact ⟨.inr rfl, rfl, memGet_put_same .., rfl, rfl, rfl, rfl, rfl⟩
  have hdue : deadlineReached p (armed s m) = true := deadlineReached_iff.mpr (.inl (hpcfg ▸ huntimed))
  refine ⟨p, _, hp, (step_of_sched hpsched).trans (expireStep_of_reached hserving hcur hpm hdue), hpcfg ▸ huntimed,
    hpstop.trans hstop, ?_, hpq, rfl, hplog ▸ rfl⟩
  show afterCompletion p.stop = .idle
  rw [hpstop, hstop]
  rfl

/-- With the bus never answering, a round for each queued message empties the queue. -/
theorem Inv.drains {s : State} (hinv : Inv s) (huntimed : s.cfg.timed = false) (hstop : s.stop = false)
    (hseq : s.seq = .idle) (qs : List Nat) (hq : s.q = qs)
    (hsched : s.sched = (List.replicate qs.length [Event.sequencer, Event.expire]).flatten) :
    ∃ s', Host.Core.run core (2 * qs.length) s = .next s' ∧ Inv s' ∧ s'.q = [] ∧ s'.seq = .idle ∧ s'.sched = [] ∧
      s'.log = s.log ++ qs.map (fun t => (t, Completion.timedOut)) := by
  induction qs generalizing s with
  | nil => exact ⟨s, rfl, hinv, hq, hseq, hsched, by simp⟩
  | cons t rest ih =>
    obtain ⟨p, r, hp, hr, hrcfg, hrstop, hrseq, hrq, hrsched, hrlog⟩ :=
      hinv.timeout_round huntimed hstop hseq hq hsched
    have hrinv : Inv r := everyStepKeepsInv p r (everyStepKeepsInv s p hinv hp) hr
    obtain ⟨s', hrun, hinv', hq', hseq', hsched', hlog'⟩ := ih hrinv hrcfg hrstop hrseq hrq hrsched
    refine ⟨s', (run_succ hp _).trans ((run_succ hr _).trans hrun), hinv', hq', hseq', hsched', ?_⟩
    rw [hlog', hrlog, List.append_assoc]
    rfl

/-- Settles O57: progress of the served message, of every accepted message, and the drain by rounds. -/
theorem queueDrainsByTimeouts : Obligations.QueueDrainsByTimeouts := by
  refine ⟨?_, ?_, ?_⟩
  · intro supply run hrun hinv hcome hfair n t m hm harmed
    by_cases hpending : m.state = .pending
    · have hcur := (EndlessRun.inv hrun hinv n).cur_of_armed hm hpending harmed
      exact EndlessRun.current_ends hrun hinv hcome hfair hcur
    · exact ⟨n, m.state, le_rfl, by simp [stateOf, hm], hpending⟩
  · intro supply run hrun hinv hcome hfair hfairSeq hstop hstarted n t m hm
    exact EndlessRun.accepted_ends hrun hinv ⟨hcome, hfair, hfairSeq, hstop, hstarted⟩ hm
  · intro s hinv huntimed hstop hseq hsched
    obtain ⟨s', hrun, hinv', hq', hseq', hsched', hlog'⟩ := hinv.drains huntimed hstop hseq s.q rfl hsched
    refine ⟨s', hrun, hq', hseq', hsched', hlog', fun t ht => ?_⟩
    have hlogged : (t, Completion.timedOut) ∈ s'.log := by
      rw [hlog']
      exact List.mem_append_right _ (List.mem_map_of_mem ht)
    obtain ⟨_, m, hm, hstate⟩ := hinv'.logged.entries t _ hlogged
    simp [stateOf, hm, hstate]

end Sys2Proof.Safety
end
